-- ==== Sys2Proof/Word.lean ====
section
/-!
DEFINITION. The word types of TMC16-CVB (spec/00_scope.md R7, spec/30_encoding.md R47): a byte, the
40-bit operation word, and the two parts of it. Clock values, responses and indices are plain
numbers, because their widths are parameters (R6); the operations that keep them in range are in
`Machine/Operands.lean`.
-/

namespace Sys2Proof

/-- A byte: 8 bits, unsigned (R7). -/
abbrev Byte := BitVec 8

/-- An operation word, OPW: 40 bits, bit 39 the most significant (R47). -/
abbrev OpWord := BitVec 40

/-- `OPW[39:32]`: the unit code in the high nibble, the function code in the low one (R47). -/
abbrev Opcode := BitVec 8

/-- `OPW[31:0]`: the operand bits (R47). -/
abbrev Arg := BitVec 32

end Sys2Proof
end

