-- ==== Sys2Proof/Syntax.lean ====
section
/-!
DEFINITION. The 38 operations of spec/opcode_table.json, one constructor each, with the operands
that spec/30_encoding.md R49 to R55 give them. Register numbers do not occur (R10); every operand is
an unsigned bit-field (R56). Bits a format calls ignored are no operands (R58).
-/

namespace Sys2Proof

/-- The block's operations (R49 to R55), family by family in the table's order. -/
inductive Instr where
  -- unit SYS (R49)
  | sysNop
  | sysTick
  -- unit TMR (R50)
  | tmrSettime (duration : BitVec 32)
  | tmrExpired
  | tmrRunning
  | tmrStop
  | tmrStart
  | tmrRestart
  -- unit BTN (R51)
  | btnAttach (pin : Byte) (debounceTime : BitVec 16) (pullup : Bool) (invert : Bool)
  | btnRead
  | btnIspressed
  | btnIsreleased
  | btnWaspressed
  | btnWasreleased
  | btnPressedfor (ms : BitVec 32)
  | btnReleasedfor (ms : BitVec 32)
  | btnTglread
  -- unit FL (R52)
  | flOn
  | flOff
  | flSingle (on off count pause : Byte)
  | flCont (on off count pause : Byte)
  | flUpdate
  -- unit CVS (R53)
  | cvsInit (decoderType version : Byte)
  | cvsNotinit
  | cvsSetdef
  | cvsRead (index : BitVec 16)
  | cvsWrite (index : BitVec 16) (value : Byte)
  | cvsAddrnotset
  | cvsStoredaddr
  -- unit CV (R54)
  | cvVfySm (cvNumber : BitVec 16) (value : Byte)
  | cvVfyPom (cvNumber : BitVec 16) (value : Byte)
  | cvWrSm (cvNumber : BitVec 16) (value : Byte)
  | cvWrPom (cvNumber : BitVec 16) (value : Byte)
  | cvBitvSm (cvNumber : BitVec 16) (bitPos : BitVec 3) (bitVal : Bool)
  | cvBitwSm (cvNumber : BitVec 16) (bitPos : BitVec 3) (bitVal : Bool)
  | cvBitPom (cvNumber : BitVec 16) (bitPos : BitVec 3) (bitVal : Bool) (writeBit : Bool)
  | cvRsvd (cvNumber : BitVec 16) (value : Byte)
  -- unit ACC (R55)
  | acc (address : BitVec 11) (isMine : Bool) (isBroadcast : Bool)
deriving DecidableEq, Repr

end Sys2Proof
end

