-- ==== Sys2Proof/Decode.lean ====
section
/-!
DEFINITION. The decoder, table-driven as spec/30_encoding.md R62 describes it, and the encoder
(the assembler of R60) written from the same formats R47 to R55. The decoder is total on 40-bit
words; a reserved word (R57) is answered by a name, and the machine drops it.
-/

namespace Sys2Proof

/-! ### Parts of a word and operand fields -/

/-- `OPW[39:32]` (R47). -/
def opcodeOf (w : OpWord) : Opcode := w.extractLsb' 32 8

/-- `OPW[31:0]` (R47). -/
def argOf (w : OpWord) : Arg := w.extractLsb' 0 32

/-- The word `{unit, fn, arg}` (R47). -/
def assemble (op : Opcode) (arg : Arg) : OpWord := op ++ arg

/-- `arg[hi:lo]` as a field of `len` bits, `len = hi - lo + 1` (R7, R56). -/
def argField (arg : Arg) (lo len : Nat) : BitVec len := arg.extractLsb' lo len

/-- A bit as a Bool (R7). -/
def argBit (arg : Arg) (i : Nat) : Bool := arg.getLsbD i

/-- Formats `SX`, `SW`: `arg[23:8]` (R53). -/
def indexField (arg : Arg) : BitVec 16 := argField arg 8 16

/-- Format `C`: `arg[31:16]` (R54). -/
def cvNumberField (arg : Arg) : BitVec 16 := argField arg 16 16

/-- Formats `SW`, `C`: `arg[7:0]` (R53, R54). -/
def valueField (arg : Arg) : Byte := argField arg 0 8

/-- `value[2:0]` of a bit manipulation (R54). -/
def bitPosField (arg : Arg) : BitVec 3 := argField arg 0 3

/-- `value[3]` of a bit manipulation (R54). -/
def bitValField (arg : Arg) : Bool := argBit arg 3

/-- Format `A`: `arg[10:0]` (R55). -/
def addressField (arg : Arg) : BitVec 11 := argField arg 0 11

/-! ### The opcode table -/

/-- A row of the table: a word belongs to it when `(OPW[39:32] & mask) = pattern`. Every mask of
spec/opcode_table.json is 0 below bit 32, so the eight opcode bits decide (R62). -/
structure Row where
  name    : String
  mask    : Opcode
  pattern : Opcode
  operands : Opcode → Arg → Instr

/-- Units `SYS` and `TMR` (R49, R50). -/
def sysTmrRows : List Row :=
  [⟨"SYS.NOP",     0xFF, 0x00, fun _ _ => .sysNop⟩,
   ⟨"SYS.TICK",    0xFF, 0x01, fun _ _ => .sysTick⟩,
   ⟨"TMR.SETTIME", 0xFF, 0x10, fun _ a => .tmrSettime a⟩,
   ⟨"TMR.EXPIRED", 0xFF, 0x11, fun _ _ => .tmrExpired⟩,
   ⟨"TMR.RUNNING", 0xFF, 0x12, fun _ _ => .tmrRunning⟩,
   ⟨"TMR.STOP",    0xFF, 0x13, fun _ _ => .tmrStop⟩,
   ⟨"TMR.START",   0xFF, 0x14, fun _ _ => .tmrStart⟩,
   ⟨"TMR.RESTART", 0xFF, 0x15, fun _ _ => .tmrRestart⟩]

/-- Unit `BTN` (R51). -/
def btnRows : List Row :=
  [⟨"BTN.ATTACH",      0xFF, 0x20, fun _ a =>
      .btnAttach (argField a 24 8) (argField a 8 16) (argBit a 1) (argBit a 0)⟩,
   ⟨"BTN.READ",        0xFF, 0x21, fun _ _ => .btnRead⟩,
   ⟨"BTN.ISPRESSED",   0xFF, 0x22, fun _ _ => .btnIspressed⟩,
   ⟨"BTN.ISRELEASED",  0xFF, 0x23, fun _ _ => .btnIsreleased⟩,
   ⟨"BTN.WASPRESSED",  0xFF, 0x24, fun _ _ => .btnWaspressed⟩,
   ⟨"BTN.WASRELEASED", 0xFF, 0x25, fun _ _ => .btnWasreleased⟩,
   ⟨"BTN.PRESSEDFOR",  0xFF, 0x26, fun _ a => .btnPressedfor a⟩,
   ⟨"BTN.RELEASEDFOR", 0xFF, 0x27, fun _ a => .btnReleasedfor a⟩,
   ⟨"BTN.TGLREAD",     0xFF, 0x28, fun _ _ => .btnTglread⟩]

/-- Unit `FL` (R52). -/
def flRows : List Row :=
  [⟨"FL.ON",     0xFF, 0x30, fun _ _ => .flOn⟩,
   ⟨"FL.OFF",    0xFF, 0x31, fun _ _ => .flOff⟩,
   ⟨"FL.SINGLE", 0xFF, 0x32, fun _ a =>
      .flSingle (argField a 24 8) (argField a 16 8) (argField a 8 8) (argField a 0 8)⟩,
   ⟨"FL.CONT",   0xFF, 0x33, fun _ a =>
      .flCont (argField a 24 8) (argField a 16 8) (argField a 8 8) (argField a 0 8)⟩,
   ⟨"FL.UPDATE", 0xFF, 0x34, fun _ _ => .flUpdate⟩]

/-- Unit `CVS` (R53). -/
def cvsRows : List Row :=
  [⟨"CVS.INIT",       0xFF, 0x40, fun _ a => .cvsInit (argField a 8 8) (argField a 0 8)⟩,
   ⟨"CVS.NOTINIT",    0xFF, 0x41, fun _ _ => .cvsNotinit⟩,
   ⟨"CVS.SETDEF",     0xFF, 0x42, fun _ _ => .cvsSetdef⟩,
   ⟨"CVS.READ",       0xFF, 0x43, fun _ a => .cvsRead (indexField a)⟩,
   ⟨"CVS.WRITE",      0xFF, 0x44, fun _ a => .cvsWrite (indexField a) (valueField a)⟩,
   ⟨"CVS.ADDRNOTSET", 0xFF, 0x45, fun _ _ => .cvsAddrnotset⟩,
   ⟨"CVS.STOREDADDR", 0xFF, 0x46, fun _ _ => .cvsStoredaddr⟩]

/-- Units `CV` and `ACC` (R54, R55); an `x` of R54's patterns is a 0 in the mask. -/
def cvAccRows : List Row :=
  [⟨"CV.VFY.SM",  0xFE, 0x54, fun _ a => .cvVfySm (cvNumberField a) (valueField a)⟩,
   ⟨"CV.VFY.POM", 0xFE, 0x56, fun _ a => .cvVfyPom (cvNumberField a) (valueField a)⟩,
   ⟨"CV.WR.SM",   0xFE, 0x5C, fun _ a => .cvWrSm (cvNumberField a) (valueField a)⟩,
   ⟨"CV.WR.POM",  0xFE, 0x5E, fun _ a => .cvWrPom (cvNumberField a) (valueField a)⟩,
   ⟨"CV.BITV.SM", 0xFF, 0x58, fun _ a =>
      .cvBitvSm (cvNumberField a) (bitPosField a) (bitValField a)⟩,
   ⟨"CV.BITW.SM", 0xFF, 0x59, fun _ a =>
      .cvBitwSm (cvNumberField a) (bitPosField a) (bitValField a)⟩,
   ⟨"CV.BIT.POM", 0xFE, 0x5A, fun op a =>
      .cvBitPom (cvNumberField a) (bitPosField a) (bitValField a) (op.getLsbD 0)⟩,
   ⟨"CV.RSVD",    0xFC, 0x50, fun _ a => .cvRsvd (cvNumberField a) (valueField a)⟩,
   ⟨"ACC",        0xFC, 0x60, fun op a =>
      .acc (addressField a) (op.getLsbD 1) (op.getLsbD 0)⟩]

/-- The 38 rows, in the order of spec/opcode_table.json. -/
def opcodeRows : List Row :=
  sysTmrRows ++ btnRows ++ flRows ++ cvsRows ++ cvAccRows

/-- The row's test (R62). -/
def Row.selects (r : Row) (op : Opcode) : Bool := (op &&& r.mask) == r.pattern

/-! ### Decoding -/

/-- Why a word is reserved (R57): by unit, the first nibble that has no meaning. -/
inductive Reserved where
  /-- `unit` is 0x7 to 0xF. -/
  | unit
  /-- Unit `SYS`, `fn` 0x2 to 0xF. -/
  | sysFn
  /-- Unit `TMR`, `fn` 0x6 to 0xF. -/
  | tmrFn
  /-- Unit `BTN`, `fn` 0x9 to 0xF. -/
  | btnFn
  /-- Unit `FL`, `fn` 0x5 to 0xF. -/
  | flFn
  /-- Unit `CVS`, `fn` 0x7 to 0xF. -/
  | cvsFn
  /-- Unit `CV` with no row: no such word exists, since `CV.RSVD` takes operation 0b00. -/
  | cvFn
  /-- Unit `ACC`, `fn[3:2]` not 0b00. -/
  | accFn
deriving DecidableEq, Repr

/-- What the decoder answers: every 40-bit word is one of the two (R62). -/
inductive Decoded where
  | instr (i : Instr)
  | reserved (why : Reserved)
deriving DecidableEq, Repr

/-- The name of a reserved opcode, from its `unit` nibble (R48, R57). -/
def reservedName (op : Opcode) : Reserved :=
  match op.toNat / 16 with
  | 0 => .sysFn
  | 1 => .tmrFn
  | 2 => .btnFn
  | 3 => .flFn
  | 4 => .cvsFn
  | 5 => .cvFn
  | 6 => .accFn
  | _ => .unit

/-- Decode an opcode and its operand bits (R62). -/
def decodeParts (op : Opcode) (arg : Arg) : Decoded :=
  match opcodeRows.find? (fun r => r.selects op) with
  | some r => .instr (r.operands op arg)
  | none => .reserved (reservedName op)

/-- Decode an operation word (R62). -/
def decode (w : OpWord) : Decoded := decodeParts (opcodeOf w) (argOf w)

/-- The operand bits of an opcode's format: the bits of `arg` that R49 to R55 do not mark ignored. -/
def operandMask (op : Opcode) : Arg :=
  match opcodeRows.find? (fun r => r.selects op) with
  | none => 0
  | some r =>
    match r.operands op 0 with
    | .tmrSettime _ => 0xFFFFFFFF
    | .btnAttach _ _ _ _ => 0xFFFFFF03
    | .btnPressedfor _ => 0xFFFFFFFF
    | .btnReleasedfor _ => 0xFFFFFFFF
    | .flSingle _ _ _ _ => 0xFFFFFFFF
    | .flCont _ _ _ _ => 0xFFFFFFFF
    | .cvsInit _ _ => 0x0000FFFF
    | .cvsRead _ => 0x00FFFF00
    | .cvsWrite _ _ => 0x00FFFFFF
    | .cvVfySm _ _ => 0xFFFF00FF
    | .cvVfyPom _ _ => 0xFFFF00FF
    | .cvWrSm _ _ => 0xFFFF00FF
    | .cvWrPom _ _ => 0xFFFF00FF
    | .cvBitvSm _ _ _ => 0xFFFF000F
    | .cvBitwSm _ _ _ => 0xFFFF000F
    | .cvBitPom _ _ _ _ => 0xFFFF000F
    | .cvRsvd _ _ => 0xFFFF00FF
    | .acc _ _ _ => 0x000007FF
    | .sysNop => 0
    | .sysTick => 0
    | .tmrExpired => 0
    | .tmrRunning => 0
    | .tmrStop => 0
    | .tmrStart => 0
    | .tmrRestart => 0
    | .btnRead => 0
    | .btnIspressed => 0
    | .btnIsreleased => 0
    | .btnWaspressed => 0
    | .btnWasreleased => 0
    | .btnTglread => 0
    | .flOn => 0
    | .flOff => 0
    | .flUpdate => 0
    | .cvsNotinit => 0
    | .cvsSetdef => 0
    | .cvsAddrnotset => 0
    | .cvsStoredaddr => 0

/-- The operand bits that stand in the opcode itself: `writeBit` of `CV.BIT.POM` (R54), `isMine` and
`isBroadcast` of `ACC` (R55). Every other opcode bit selects the row or is ignored. -/
def opcodeOperandMask (op : Opcode) : Opcode :=
  if op &&& 0xFE = 0x5A then 0x01 else if op &&& 0xFC = 0x60 then 0x03 else 0x00

/-- The decoder on an instruction whose `nbits` bits are `w` and whose bits above are 0, numbered as
spec/opcode_table.json numbers them: the operation word is the one word, bit 39 its highest (R47). -/
def decodeTableWord (nbits w : Nat) : Option Instr :=
  match decode (BitVec.ofNat 40 (w % 2 ^ nbits)) with
  | .instr i => some i
  | .reserved _ => none

/-! ### Encoding -/

/-- A field written at `arg[lo + len - 1 : lo]`, every other bit 0 (R7, R58). -/
def place (lo : Nat) {len : Nat} (v : BitVec len) : Arg := v.setWidth 32 <<< lo

/-- A one-bit field written at `arg[lo]`. -/
def placeBit (lo : Nat) (b : Bool) : Arg := place lo (BitVec.ofBool b)

/-- Format `BA` (R51). -/
def attachArg (pin : Byte) (debounceTime : BitVec 16) (pullup invert : Bool) : Arg :=
  place 24 pin ||| place 8 debounceTime ||| placeBit 1 pullup ||| placeBit 0 invert

/-- Format `FP` (R52). -/
def patternArg (on off count pause : Byte) : Arg :=
  place 24 on ||| place 16 off ||| place 8 count ||| place 0 pause

/-- Formats `SX` and `SW` (R53); `CVS.READ` writes the value bits, which it ignores, as 0. -/
def storeArg (index : BitVec 16) (value : Byte) : Arg := place 8 index ||| place 0 value

/-- Format `C` (R54). -/
def cvArg (cvNumber : BitVec 16) (value : Byte) : Arg := place 16 cvNumber ||| place 0 value

/-- Format `C` of a bit manipulation, whose data byte the assembler writes as `0b111K_d_ppp`: K the
`writeBit`, d the polarity, ppp the position (R61). -/
def bitArg (cvNumber : BitVec 16) (bitPos : BitVec 3) (bitVal k : Bool) : Arg :=
  place 16 cvNumber ||| place 5 0b111#3 ||| placeBit 4 k ||| placeBit 3 bitVal ||| place 0 bitPos

/-- An opcode with `mode` and `writeBit`, or `isMine` and `isBroadcast`, in its two low bits
(R54, R55). -/
def opcodeWithBits (base : Opcode) (b1 b0 : Bool) : Opcode :=
  base ||| (if b1 then 2 else 0) ||| (if b0 then 1 else 0)

/-- The encoding of an instruction, ignored bits written as 0 (R58) but for the bits of a
bit-manipulation byte that R61 writes as the bus standard does. -/
def encode : Instr → OpWord
  | .sysNop => assemble 0x00 0
  | .sysTick => assemble 0x01 0
  | .tmrSettime duration => assemble 0x10 duration
  | .tmrExpired => assemble 0x11 0
  | .tmrRunning => assemble 0x12 0
  | .tmrStop => assemble 0x13 0
  | .tmrStart => assemble 0x14 0
  | .tmrRestart => assemble 0x15 0
  | .btnAttach pin debounceTime pullup invert =>
      assemble 0x20 (attachArg pin debounceTime pullup invert)
  | .btnRead => assemble 0x21 0
  | .btnIspressed => assemble 0x22 0
  | .btnIsreleased => assemble 0x23 0
  | .btnWaspressed => assemble 0x24 0
  | .btnWasreleased => assemble 0x25 0
  | .btnPressedfor ms => assemble 0x26 ms
  | .btnReleasedfor ms => assemble 0x27 ms
  | .btnTglread => assemble 0x28 0
  | .flOn => assemble 0x30 0
  | .flOff => assemble 0x31 0
  | .flSingle on off count pause => assemble 0x32 (patternArg on off count pause)
  | .flCont on off count pause => assemble 0x33 (patternArg on off count pause)
  | .flUpdate => assemble 0x34 0
  | .cvsInit decoderType version => assemble 0x40 (place 8 decoderType ||| place 0 version)
  | .cvsNotinit => assemble 0x41 0
  | .cvsSetdef => assemble 0x42 0
  | .cvsRead index => assemble 0x43 (storeArg index 0)
  | .cvsWrite index value => assemble 0x44 (storeArg index value)
  | .cvsAddrnotset => assemble 0x45 0
  | .cvsStoredaddr => assemble 0x46 0
  | .cvVfySm cvNumber value => assemble 0x54 (cvArg cvNumber value)
  | .cvVfyPom cvNumber value => assemble 0x56 (cvArg cvNumber value)
  | .cvWrSm cvNumber value => assemble 0x5C (cvArg cvNumber value)
  | .cvWrPom cvNumber value => assemble 0x5E (cvArg cvNumber value)
  | .cvBitvSm cvNumber bitPos bitVal => assemble 0x58 (bitArg cvNumber bitPos bitVal false)
  | .cvBitwSm cvNumber bitPos bitVal => assemble 0x59 (bitArg cvNumber bitPos bitVal true)
  | .cvBitPom cvNumber bitPos bitVal writeBit =>
      assemble (opcodeWithBits 0x5A false writeBit) (bitArg cvNumber bitPos bitVal writeBit)
  | .cvRsvd cvNumber value => assemble 0x50 (cvArg cvNumber value)
  | .acc address isMine isBroadcast =>
      assemble (opcodeWithBits 0x60 isMine isBroadcast) (place 0 address)

end Sys2Proof
end

