-- ==== Sys2Proof/Config.lean ====
section
/-!
DEFINITION. The implementation parameters of spec/00_scope.md R5 and R6, as ONE plain record.
The spec makes every one of them a named argument of the model; the machine's fixed signature
carries that argument in `State.cfg`, which no step changes (assumption log 1). A statement about
every state is therefore a statement about every instantiation.
-/

namespace Sys2Proof

/-- The four timing parameters of a flash pattern, in time steps (R20, R52). -/
structure Pattern where
  on    : Byte
  off   : Byte
  count : Byte
  pause : Byte
deriving DecidableEq, Repr

/-- One row of the open part of the factory image (R98, last row). `none` matches every tag, so a
list of rows can describe any function of (`decoderType`, `version`, `index`): see log 3. -/
structure ImageRow where
  decoderType : Option Byte
  version     : Option Byte
  index       : Nat
  value       : Byte
deriving DecidableEq, Repr

/-- The parameters of R5 (values the document gives) and R6 (values it leaves open). -/
structure Params where
  -- R5
  /-- `N`: the highest index of the CV table. -/
  n             : Nat
  magic         : Byte
  resetSentinel : Byte
  defAddrLow    : Byte
  defAddrHigh   : Byte
  fallbackAddr  : Nat
  longHoldMs    : Nat
  tickMs        : Nat
  -- R6
  idxAddrLow    : Nat
  idxAddrHigh   : Nat
  idxVersion    : Nat
  idxVid        : Nat
  idxConfig     : Nat
  idxLongHigh   : Nat
  idxLongLow    : Nat
  idxCmdStation : Nat
  idxShortcut   : Nat
  idxDiag       : Nat
  idxRestart    : Nat
  idxSearch     : Nat
  bitAcc        : Fin 8
  bitOut        : Fin 8
  bitLong       : Fin 8
  addrBits      : Nat
  clkBits       : Nat
  cvMin         : Nat
  /-- The part of `DEFAULT_IMAGE` that R98 leaves open; the first row that matches gives the byte,
  and an index no row matches holds 0x00. -/
  imageRows     : List ImageRow
  decoderType   : Byte
  version       : Byte
  debounceMs    : BitVec 16
  btnInvert     : Bool
  btnPullup     : Bool
  btnPin        : Byte
  settleMs      : Nat
  patFast       : Pattern
  patSearch     : Pattern
deriving DecidableEq, Repr

/-- The twelve `IDX_*` parameters (R6, R14). -/
def Params.namedIndices (p : Params) : List Nat :=
  [p.idxAddrLow, p.idxAddrHigh, p.idxVersion, p.idxVid, p.idxConfig, p.idxLongHigh, p.idxLongLow,
   p.idxCmdStation, p.idxShortcut, p.idxDiag, p.idxRestart, p.idxSearch]

/-- `UNASSIGNED = 2^ADDR_BITS - 1` (R6). -/
def Params.unassigned (p : Params) : Nat := 2 ^ p.addrBits - 1

/-- Every field of the pattern is in 1..255 (R6, `PAT_FAST` and `PAT_SEARCH`). -/
abbrev Pattern.Positive (q : Pattern) : Prop :=
  q.on ≠ 0 ∧ q.off ≠ 0 ∧ q.count ≠ 0 ∧ q.pause ≠ 0

/-- The constraints of R6, "which a model may assume and nothing else". Those that the types of the
fields already say (a bit position in 0..7, a byte, a 16-bit debounce time) are not repeated. -/
abbrev Params.Legal (p : Params) : Prop :=
  p.namedIndices.Nodup ∧
  (∀ i ∈ p.namedIndices, 1 ≤ i ∧ i ≤ p.n) ∧
  (p.bitAcc ≠ p.bitOut ∧ p.bitAcc ≠ p.bitLong ∧ p.bitOut ≠ p.bitLong) ∧
  14 ≤ p.addrBits ∧
  16 ≤ p.clkBits ∧
  p.cvMin ≤ 1 ∧
  1 ≤ p.settleMs ∧
  p.patFast.Positive ∧
  p.patSearch.Positive

/-- The values that R5 calls normative. -/
abbrev Params.Normative (p : Params) : Prop :=
  p.n = 63 ∧ p.magic = 0x55 ∧ p.resetSentinel = 0x0D ∧ p.defAddrLow = 0x01 ∧
  p.defAddrHigh = 0x80 ∧ p.fallbackAddr = 3 ∧ p.longHoldMs = 5000 ∧ p.tickMs = 20

/-- REF, the spec's reference instantiation (R6, column REF; the image: R98, last paragraph). -/
def Params.ref : Params where
  n             := 63
  magic         := 0x55
  resetSentinel := 0x0D
  defAddrLow    := 0x01
  defAddrHigh   := 0x80
  fallbackAddr  := 3
  longHoldMs    := 5000
  tickMs        := 20
  idxAddrLow    := 1
  idxAddrHigh   := 9
  idxVersion    := 7
  idxVid        := 8
  idxConfig     := 29
  idxLongHigh   := 17
  idxLongLow    := 18
  idxCmdStation := 19
  idxShortcut   := 33
  idxDiag       := 26
  idxRestart    := 25
  idxSearch     := 23
  bitAcc        := 7
  bitOut        := 6
  bitLong       := 5
  addrBits      := 16
  clkBits       := 32
  cvMin         := 1
  imageRows     := [⟨none, none, 8, 0x0D⟩, ⟨none, none, 29, 0x80⟩]
  decoderType   := 0x00
  version       := 0x10
  debounceMs    := 25
  btnInvert     := false
  btnPullup     := false
  btnPin        := 0
  settleMs      := 100
  patFast       := ⟨5, 5, 1, 5⟩
  patSearch     := ⟨25, 25, 1, 25⟩

end Sys2Proof
end

