-- ==== Sys2Proof/Machine/State.lean ====
section
/-!
DEFINITION. The state of TMC16-CVB, all of spec/10_state.md, as plain data, with the model's own
fields beside it: the parameters (log 1) and the operation port (logs 4 and 5). The reset state is
the table of R26.
-/

namespace Sys2Proof.Machine

/-- A byte array by index as (index, byte) pairs in one canonical form: indices strictly rising, no
pair that holds what an unlisted index reads as (`Machine/Ops.lean`, `erasedByte`). -/
abbrev Memory := List Host.Cell

/-- A Monotonic Timer (R17). The two numbers are `CLK_BITS` wide. -/
structure Timer where
  armed     : Bool
  duration  : Nat
  startTime : Nat
deriving DecidableEq, Repr

/-- The Debounced Button (R19). `lastChangeTime` is `CLK_BITS` wide. -/
structure Button where
  rawPin         : Byte
  debounce       : BitVec 16
  pullupEnabled  : Bool
  invertLogic    : Bool
  currentState   : Bool
  previousState  : Bool
  changed        : Bool
  lastChangeTime : Nat
  toggleState    : Bool
  attached       : Bool
deriving DecidableEq, Repr

/-- The modes of the Flash Pattern Engine (R20); `FlashMode.code` gives their numbers. -/
inductive FlashMode where
  | alwaysOff
  | alwaysOn
  | singleBurst
  | continuousBursts
deriving DecidableEq, Repr

/-- The numeric codes of R20. -/
def FlashMode.code : FlashMode → BitVec 2
  | .alwaysOff => 0
  | .alwaysOn => 1
  | .singleBurst => 2
  | .continuousBursts => 3

/-- The Flash Pattern Engine (R20). `lastTick` is `CLK_BITS` wide. -/
structure Flash where
  onTicks        : Byte
  offTicks       : Byte
  burstCount     : Byte
  pauseTicks     : Byte
  mode           : FlashMode
  ticksRemaining : Byte
  burstsSoFar    : Byte
  led            : Bool
  lastTick       : Nat
deriving DecidableEq, Repr

/-- The states of the Address-Programming Session (R21); `Session.code` gives their numbers. -/
inductive Session where
  | idle
  | armed
  | waiting
  | captured
deriving DecidableEq, Repr

/-- The numeric codes of R21. -/
def Session.code : Session → BitVec 2
  | .idle => 0
  | .armed => 1
  | .waiting => 2
  | .captured => 3

/-- The events an operation can emit (R8, R152, R153). -/
inductive Event where
  | ack
  | reboot
deriving DecidableEq, Repr

/-- One operation as the environment presents it: the word and the two sampled inputs (R8, R46). -/
structure Request where
  word : OpWord
  now  : Nat
  raw  : Bool
deriving DecidableEq, Repr

/-- What the environment may do next: issue an operation, or, between two operations, take the
power away and give it back (R164). -/
inductive Stimulus where
  | operation (r : Request)
  | powerCycle
deriving DecidableEq, Repr

/-- The state of the block (R9 to R22) and, below the line, the model's own fields. -/
structure State where
  /-- `table`, persisted (R12). -/
  table     : Memory
  /-- `defaults`, `N+1` bytes by index (R13). -/
  defaults  : List Byte
  /-- `CVS.INIT` has run since the last reset (R13). -/
  inited    : Bool
  /-- `TU`, the user timer (R18). -/
  tu        : Timer
  /-- `TS`, the settle timer (R18). -/
  ts        : Timer
  /-- The button (R19). -/
  btn       : Button
  /-- The indicator's engine (R20). -/
  fl        : Flash
  /-- `sess` (R21). -/
  sess      : Session
  /-- `flashFlag` (R22). -/
  flashFlag : Bool
  -- The model's own fields.
  /-- The parameters of R5 and R6; no step changes them (log 1). -/
  cfg       : Params
  /-- `now`, the clock as the operation in hand sampled it (R11, R8; log 4). -/
  now       : Nat
  /-- `raw`, the input line as the operation in hand sampled it (R8; log 4). -/
  raw       : Bool
  /-- `rsp`, the response of the last operation (R59; log 5). -/
  rsp       : Nat
  /-- The event list of the last operation, in order of emission (R8; log 5). -/
  events    : List Event
  /-- What the environment will do, next first: the operation port's input (R46, R141; log 4). -/
  port      : List Stimulus
deriving DecidableEq, Repr

/-- Why the machine would stop with a fault: never. "The block raises no exception, takes no trap
and has no fault state" (R150), so the type has no constructor (log 9). -/
inductive Fault where
deriving DecidableEq, Repr

/-- Why the machine gives an operation no result: the `refuse` of the spec (R7, R180). Every one is
safe: the spec gives the situation no meaning and the model goes no further. -/
inductive Refusal where
  /-- An instruction whose arm of `exec` has no meaning yet. No arm raises it; safe. -/
  | notModelled (mnemonic : String)
  /-- `CVS.READ`, `CVS.WRITE` with `index` > `N` (R102, R103, U1); safe. -/
  | indexOutOfRange
  /-- `CVS.SETDEF` with `inited` = 0 (R101, U2); safe. -/
  | setDefaultsBeforeInit
  /-- A `BTN` operation other than `BTN.ATTACH` with `attached` = 0 (R72, U4); safe. -/
  | buttonNotAttached
  /-- `FL.SINGLE`, `FL.CONT` with a 0 in a field the mode uses (R85, U6); safe. -/
  | flashFieldZero
  /-- `SYS.TICK`, every `CV` operation but `CV.RSVD`, `ACC` with `inited` = 0 or `attached` = 0
  (R169, U8); safe. -/
  | notBooted
deriving DecidableEq, Repr

/-- The outcome of an operation. -/
abbrev Result := Host.Outcome State Fault Refusal

/-- A timer at reset: disarmed, duration 0, start 0 (R26). -/
def Timer.reset : Timer := ⟨false, 0, 0⟩

/-- The button at reset: unattached, every field 0 (R26). -/
def Button.reset : Button where
  rawPin         := 0
  debounce       := 0
  pullupEnabled  := false
  invertLogic    := false
  currentState   := false
  previousState  := false
  changed        := false
  lastChangeTime := 0
  toggleState    := false
  attached       := false

/-- The indicator at reset: `AlwaysOff`, dark, all counters 0 (R26). -/
def Flash.reset : Flash where
  onTicks        := 0
  offTicks       := 0
  burstCount     := 0
  pauseTicks     := 0
  mode           := .alwaysOff
  ticksRemaining := 0
  burstsSoFar    := 0
  led            := false
  lastTick       := 0

/-- `resetState(table)` (R164): the given table, every other element at its reset value (R26), for
the given parameters; nothing sampled, nothing answered, nothing waiting at the port. -/
def State.resetWith (cfg : Params) (table : Memory) : State where
  table     := table
  defaults  := List.replicate (cfg.n + 1) 0
  inited    := false
  tu        := Timer.reset
  ts        := Timer.reset
  btn       := Button.reset
  fl        := Flash.reset
  sess      := .idle
  flashFlag := false
  cfg       := cfg
  now       := 0
  raw       := false
  rsp       := 0
  events    := []
  port      := []

/-- The machine right after the very first power-on at REF: the reset state over a table in which
nothing has been written (R165; logs 1 and 2). -/
def State.reset : State := State.resetWith Params.ref []

end Sys2Proof.Machine
end

