-- ==== Sys2Proof/Machine/Operands.lean ====
section
/-!
DEFINITION. Operand forms and the arithmetic on them: clock values modulo `2^CLK_BITS` (R7, R11),
operands used at their low bits (R50, R51), single bits of a byte (R54), the parameters of a flash
pattern (R85), the decoder-address derivation and its inverse (R105 to R109).
-/

namespace Sys2Proof.Machine

/-! ### Clock values -/

/-- A number at its `CLK_BITS` low bits (R50, R51). -/
def clkLow (p : Params) (t : Nat) : Nat := t % 2 ^ p.clkBits

/-- `now -_CLK_BITS t0`, the unsigned modular difference (R7, R11). -/
def clkSub (p : Params) (now t0 : Nat) : Nat :=
  (now + (2 ^ p.clkBits - t0 % 2 ^ p.clkBits)) % 2 ^ p.clkBits

/-! ### Bits of a byte -/

/-- `b[i]` (R7). -/
def bitOf (b : Byte) (i : Nat) : Bool := b.getLsbD i

/-- `b | (1 << i)` or `b & ~(1 << i)` (R121). -/
def withBit (b : Byte) (i : Nat) (v : Bool) : Byte :=
  if v then b ||| (1#8 <<< i) else b &&& ~~~(1#8 <<< i)

/-! ### Flash patterns -/

/-- No field that the mode uses is 0 (R85). The two steady modes use none. -/
def patternUsable : FlashMode → Pattern → Bool
  | .alwaysOff, _ => true
  | .alwaysOn, _ => true
  | .singleBurst, q => q.on != 0 && q.count != 0 && (decide (q.count.toNat ≤ 1) || q.off != 0)
  | .continuousBursts, q =>
      q.on != 0 && q.count != 0 && (decide (q.count.toNat ≤ 1) || q.off != 0) && q.pause != 0

/-! ### Responses -/

/-- `zext_ADDR_BITS(v)`: a response of `ADDR_BITS` bits (R59). -/
def addrLow (p : Params) (v : Nat) : Nat := v % 2 ^ p.addrBits

/-- `a -_ADDR_BITS b` (R7). -/
def addrSub (p : Params) (a b : Nat) : Nat :=
  (a + (2 ^ p.addrBits - b % 2 ^ p.addrBits)) % 2 ^ p.addrBits

/-! ### The decoder address -/

/-- `((hi & 0x07) << 8) | lo`, 11 bits (R106). -/
def accOutputNumber (hi lo : Byte) : BitVec 11 := hi.extractLsb' 0 3 ++ lo

/-- `((hi & 0x07) << 6) | (lo & 0x3F)`, 9 bits: the stored, 1-based number (R107). -/
def accDecoderNumber (hi lo : Byte) : BitVec 9 := hi.extractLsb' 0 3 ++ lo.extractLsb' 0 6

/-- Accessory, output addressing (R106). -/
def accOutput (p : Params) (hi lo : Byte) : Nat := addrLow p (accOutputNumber hi lo).toNat

/-- Accessory, decoder addressing: the whole number less one (R107; 90_conflicts.md C1). -/
def accDecoder (p : Params) (hi lo : Byte) : Nat :=
  addrSub p (addrLow p (accDecoderNumber hi lo).toNat) 1

/-- The 14-bit long address, `((longHigh & 0x3F) << 8) | longLow` (R108). -/
def longNumber (longHigh longLow : Byte) : BitVec 14 := longHigh.extractLsb' 0 6 ++ longLow

/-- The 7-bit short address, `lo & 0x7F` (R108). -/
def shortNumber (lo : Byte) : BitVec 7 := lo.extractLsb' 0 7

/-- Multifunction addressing, with the fallback for address 0 (R108). -/
def multifunction (p : Params) (cfgByte lo longHigh longLow : Byte) : Nat :=
  let a := if bitOf cfgByte p.bitLong.val then (longNumber longHigh longLow).toNat
           else (shortNumber lo).toNat
  addrLow p (if a = 0 then p.fallbackAddr else a)

/-- The derivation over the five bytes it reads: sentinel first, then the mode (R105). -/
def deriveAddress (p : Params) (hi lo cfgByte longHigh longLow : Byte) : Nat :=
  if bitOf hi 7 then p.unassigned
  else if bitOf cfgByte p.bitAcc.val then
    if bitOf cfgByte p.bitOut.val then accOutput p hi lo else accDecoder p hi lo
  else multifunction p cfgByte lo longHigh longLow

/-- `encodeAddress`, the inverse of the derivation: the pair (lo, hi) to store (R109). -/
def encodeAddress (a : BitVec 11) (outputAddressing : Bool) : Byte × Byte :=
  if outputAddressing then (a.extractLsb' 0 8, (a.extractLsb' 8 3).setWidth 8)
  else
    let t : BitVec 12 := a.setWidth 12 + 1
    ((t.extractLsb' 0 6).setWidth 8, (t.extractLsb' 6 3).setWidth 8)

/-! ### CV commands -/

/-- The `mode` field of a CV command (R54). -/
inductive CvMode where
  | serviceMode
  | programmingOnMain
deriving DecidableEq, Repr

/-- `idx = cvNumber`, as it stands (R56, R114). -/
def cvIndex (cvNumber : BitVec 16) : Nat := cvNumber.toNat

end Sys2Proof.Machine
end

