-- ==== Sys2Proof/Machine/Flags.lean ====
section
/-!
DEFINITION. The boolean conditions the rules compute: the timer's (R63, R66), the button's (R72,
R77 to R80), the store's (R100, R104), the CV Command Processor's range check (R114), and what has
to have run before an operation (R169). The block has no condition-code register (R23).
-/

namespace Sys2Proof.Machine

/-! ### Timers -/

/-- The timer has elapsed: `elapsed(T) >= T.duration` (R63). -/
def hasElapsed (p : Params) (now : Nat) (t : Timer) : Bool :=
  decide (t.duration ≤ clkSub p now t.startTime)

/-- `expired(T)` answers 1: armed and elapsed (R65). -/
def firesNow (p : Params) (now : Nat) (t : Timer) : Bool := t.armed && hasElapsed p now t

/-- `running(T)`: armed and not yet elapsed (R66). -/
def isRunning (p : Params) (now : Nat) (t : Timer) : Bool := t.armed && !hasElapsed p now t

/-! ### The button -/

/-- The sample `s = raw ^ invertLogic`; 1 means pressed (R72). -/
def sampleOf (b : Button) (raw : Bool) : Bool := xor raw b.invertLogic

/-- `sinceChange` (R72). -/
def sinceChange (p : Params) (now : Nat) (b : Button) : Nat := clkSub p now b.lastChangeTime

/-- A read now falls inside the debounce window and is rejected (R74). -/
def inWindow (p : Params) (now : Nat) (b : Button) : Bool :=
  decide (sinceChange p now b < b.debounce.toNat)

/-- `wasPressed()` (R77). -/
def wasPressed (b : Button) : Bool := b.currentState && b.changed

/-- `wasReleased()` (R78). -/
def wasReleased (b : Button) : Bool := !b.currentState && b.changed

/-- `pressedFor(ms)` (R79). -/
def pressedFor (p : Params) (now : Nat) (b : Button) (ms : Nat) : Bool :=
  b.currentState && decide (ms ≤ sinceChange p now b)

/-- `releasedFor(ms)` (R80). -/
def releasedFor (p : Params) (now : Nat) (b : Button) (ms : Nat) : Bool :=
  !b.currentState && decide (ms ≤ sinceChange p now b)

/-! ### The store and the command processor -/

/-- `notInitialised()` of the marker byte (R100). -/
def markerDiffers (p : Params) (marker : Byte) : Bool := marker != p.magic

/-- `addressNotSet()` of the address-high byte: its sentinel bit (R104, R16). -/
def sentinelSet (addrHigh : Byte) : Bool := bitOf addrHigh 7

/-- `cvIndexOk(cvNumber)` (R114). -/
def cvIndexOk (p : Params) (cvNumber : BitVec 16) : Bool :=
  decide (p.cvMin ≤ cvIndex cvNumber) && decide (cvIndex cvNumber ≤ p.n)

/-- An accessory command qualifies by its addressing: `isBroadcast` or `isMine` (R135). -/
def accQualifies (isMine isBroadcast : Bool) : Bool := isBroadcast || isMine

/-- The boot sequence has run since the last reset: `inited = 1` and `attached = 1` (R169). -/
def booted (s : State) : Bool := s.inited && s.btn.attached

end Sys2Proof.Machine
end

