-- ==== Sys2Proof/Machine/Ops.lean ====
section
/-!
DEFINITION. The named operations every meaning is made of: the persisted byte array and the two
access primitives (spec/20_memory.md R33, R34), the answer of an operation (R7, R8), the factory
image and the factory reset (R97, R98, R101), the timers (R64 to R68), the read of the button (R74),
the indicator (R86 to R90), and the reboot, the nearest thing the block has to a trap (R153, R156).
-/

namespace Sys2Proof.Machine

/-! ### The persisted byte array -/

/-- What an index that the list does not name reads as: an erased byte (R165; log 2). -/
def erasedByte : Byte := 0xFF

/-- The byte at an index. -/
def Memory.read : Memory → Nat → Byte
  | [], _ => erasedByte
  | (a, b) :: rest, i => if a = i then b else Memory.read rest i

/-- Store a byte at an index, keeping the canonical form. -/
def Memory.write : Memory → Nat → Byte → Memory
  | [], i, v => if v = erasedByte then [] else [(i, v)]
  | (a, b) :: rest, i, v =>
    if i < a then (if v = erasedByte then (a, b) :: rest else (i, v) :: (a, b) :: rest)
    else if i = a then (if v = erasedByte then rest else (i, v) :: rest)
    else (a, b) :: Memory.write rest i v

/-- The canonical form: indices strictly rising, no erased byte listed. -/
def Memory.wf : Memory → Bool
  | [] => true
  | (a, b) :: rest =>
    b != erasedByte && rest.all (fun c => decide (a < c.1)) && Memory.wf rest

/-- Every listed index is an index of the table, 0..`N` (R31). -/
def Memory.within (n : Nat) (m : Memory) : Bool := m.all (fun c => decide (c.1 ≤ n))

/-- `MemRead(i, 1)` (R33). -/
def memRead (s : State) (i : Nat) : Byte := Memory.read s.table i

/-- `MemWrite(i, 1, v)` (R34). -/
def memWrite (s : State) (i : Nat) (v : Byte) : State :=
  { s with table := Memory.write s.table i v }

/-! ### Answers -/

/-- An operation begins with no event and response 0 (R7). -/
def opStart (s : State) : State := { s with rsp := 0, events := [] }

/-- `rsp <- v` (R7). -/
def respond (s : State) (v : Nat) : State := { s with rsp := v }

/-- `rsp <- 0` or `1` (R59). -/
def respondBool (s : State) (b : Bool) : State := respond s b.toNat

/-- `emit e` (R7). -/
def emit (s : State) (e : Event) : State := { s with events := s.events ++ [e] }

/-- `emit Ack`, in Service Mode only (R119). -/
def ackIn (mode : CvMode) (s : State) : State :=
  match mode with
  | .serviceMode => emit s .ack
  | .programmingOnMain => s

/-- `drop`: no state change, no event, response 0 (R7). -/
def dropped (s : State) : State := opStart s

/-! ### Reset and reboot -/

/-- Every volatile element takes its reset value; the table is kept (R26, R164). What belongs to the
environment (the samples of the operation in hand, its answer so far, the port) is not the block's. -/
def volatileReset (s : State) : State :=
  { State.resetWith s.cfg s.table with
    now := s.now, raw := s.raw, rsp := s.rsp, events := s.events, port := s.port }

/-- `reboot()`: emit `Reboot`, then every volatile element takes its reset value (R153). The rules
that call it do nothing after it. -/
def reboot (s : State) : State := volatileReset (emit s .reboot)

/-- Power lost and given back between two operations (R164, R165): the same reset, with no event. -/
def powerCycle (s : State) : State := volatileReset (opStart s)

/-! ### The factory image and the factory reset -/

/-- A tag matches a row's tag. -/
def tagMatches (want : Option Byte) (actual : Byte) : Bool :=
  match want with
  | none => true
  | some b => b == actual

/-- The open part of the image: the first row that matches, else 0x00 (R98, last row; log 3). -/
def imageRowByte (rows : List ImageRow) (decoderType version : Byte) (i : Nat) : Byte :=
  match rows.find? (fun r => tagMatches r.decoderType decoderType &&
      tagMatches r.version version && r.index == i) with
  | some r => r.value
  | none => 0x00

/-- `DEFAULT_IMAGE(decoderType, version)[i]` (R98). -/
def imageByte (p : Params) (decoderType version : Byte) (i : Nat) : Byte :=
  if i = 0 then p.magic
  else if i = p.idxAddrLow then p.defAddrLow
  else if i = p.idxAddrHigh then p.defAddrHigh
  else if i = p.idxVersion then version
  else imageRowByte p.imageRows decoderType version i

/-- `DEFAULT_IMAGE(decoderType, version)`: `N+1` bytes (R98). -/
def defaultImage (p : Params) (decoderType version : Byte) : List Byte :=
  (List.range (p.n + 1)).map (imageByte p decoderType version)

/-- `defaults[i]` (R13). -/
def defaultAt (s : State) (i : Nat) : Byte := s.defaults.getD i 0

/-- `for i in 0, 1, ..., N (ascending): MemWrite(i, 1, defaults[i])` (R101). -/
def setDefaults (s : State) : State :=
  (List.range (s.cfg.n + 1)).foldl (fun t i => memWrite t i (defaultAt s i)) s

/-! ### Timers -/

/-- `setTime(T, d)` (R64); the duration register holds the `CLK_BITS` low bits (R17, R50). -/
def setTime (p : Params) (now : Nat) (t : Timer) (d : Nat) : Timer :=
  let d' := clkLow p d
  if 0 < d' then ⟨true, d', now⟩ else { t with armed := false, duration := d' }

/-- The state change of `expired(T)`: the one true answer disarms (R65). -/
def expire (p : Params) (now : Nat) (t : Timer) : Timer :=
  if firesNow p now t then { t with armed := false } else t

/-- `stop(T)` (R67). -/
def stopTimer (t : Timer) : Timer := { t with armed := false }

/-- `start(T)`: re-arm with the duration set before (R68). -/
def startTimer (p : Params) (now : Nat) (t : Timer) : Timer := setTime p now t t.duration

/-! ### The button -/

/-- `BTN.ATTACH` on the button (R73). -/
def attachButton (pin : Byte) (debounceTime : BitVec 16) (pullup invert : Bool)
    (now : Nat) (raw : Bool) : Button where
  rawPin         := pin
  debounce       := debounceTime
  pullupEnabled  := pullup
  invertLogic    := invert
  currentState   := xor raw invert
  previousState  := xor raw invert
  changed        := false
  lastChangeTime := now
  toggleState    := false
  attached       := true

/-- A sample outside the debounce window (R74, `else` branch). -/
def acceptSample (now : Nat) (s : Bool) (b : Button) : Button :=
  if s != b.currentState then
    { b with previousState := b.currentState, currentState := s, changed := true,
             lastChangeTime := now, toggleState := if s then !b.toggleState else b.toggleState }
  else { b with previousState := b.currentState, changed := false }

/-- `buttonRead()` (R74). -/
def readButton (p : Params) (now : Nat) (raw : Bool) (b : Button) : Button :=
  if inWindow p now b then { b with changed := false }
  else acceptSample now (sampleOf b raw) b

/-- `buttonRead()` on the block. -/
def buttonRead (s : State) : State := { s with btn := readButton s.cfg s.now s.raw s.btn }

/-! ### The indicator -/

/-- `turnOn()` (R86). -/
def lightOn (f : Flash) : Flash := { f with mode := .alwaysOn, led := true }

/-- `turnOff()` (R87). -/
def lightOff (f : Flash) : Flash := { f with mode := .alwaysOff, led := false }

/-- `configure(m, on, off, count, pause)` (R88). -/
def configured (m : FlashMode) (q : Pattern) (now : Nat) : Flash where
  onTicks        := q.on
  offTicks       := q.off
  burstCount     := q.count
  pauseTicks     := q.pause
  mode           := m
  ticksRemaining := q.on
  burstsSoFar    := 0
  led            := true
  lastTick       := now

/-- An interval has ended: toggle the output and derive the next interval (R90). -/
def nextInterval (f : Flash) : Flash :=
  if f.led then
    let f1 := { f with led := false, burstsSoFar := f.burstsSoFar + 1 }
    if f1.burstsSoFar.toNat < f.burstCount.toNat then { f1 with ticksRemaining := f.offTicks }
    else if f.mode = .singleBurst then { f1 with mode := .alwaysOff }
    else { f1 with ticksRemaining := f.pauseTicks }
  else
    let f1 := if f.burstCount.toNat ≤ f.burstsSoFar.toNat then { f with burstsSoFar := 0 } else f
    { f1 with led := true, ticksRemaining := f.onTicks }

/-- A qualifying tick: one time step (R90). -/
def timeStep (now : Nat) (f : Flash) : Flash :=
  let f1 := { f with lastTick := now, ticksRemaining := f.ticksRemaining - 1 }
  if f1.ticksRemaining ≠ 0 then f1 else nextInterval f1

/-- The engine is in one of the two timed modes. -/
def timedMode (f : Flash) : Bool := f.mode == .singleBurst || f.mode == .continuousBursts

/-- `flashUpdate()` (R90). -/
def updateFlash (p : Params) (now : Nat) (f : Flash) : Flash :=
  if !timedMode f then f
  else if clkSub p now f.lastTick < p.tickMs then f
  else timeStep now f

/-- `flashUpdate()` on the block. -/
def flashUpdate (s : State) : State := { s with fl := updateFlash s.cfg s.now s.fl }

/-- `turnOn()` on the block. -/
def turnOn (s : State) : State := { s with fl := lightOn s.fl }

/-- `turnOff()` on the block. -/
def turnOff (s : State) : State := { s with fl := lightOff s.fl }

/-- `configure(...)` on the block. -/
def configure (s : State) (m : FlashMode) (q : Pattern) : State :=
  { s with fl := configured m q s.now }

/-! ### Requirements -/

/-- Go on only where the boot sequence has run, else `refuse` (R169). -/
def whenBooted (s : State) (t : State) : Result :=
  if booted s then .next t else .refused .notBooted

/-- Go on only where `BTN.ATTACH` has run, else `refuse` (R72). -/
def whenAttached (s : State) (t : State) : Result :=
  if s.btn.attached then .next t else .refused .buttonNotAttached

/-- The range check at the head of a `CV` operation: outside it the command is dropped (R114). -/
def whenIndexOk (cvNumber : BitVec 16) (s : State) (t : State) : State :=
  if cvIndexOk s.cfg cvNumber then t else dropped s

/-! ### The operation port -/

/-- The operation in hand sees the two inputs as sampled for it (R8, R11). -/
def present (r : Request) (s : State) : State := { s with now := clkLow s.cfg r.now, raw := r.raw }

/-- A reserved word is dropped, in every state (R57). -/
def dropReserved (s : State) : Result := .next (dropped s)

/-- Nothing waits at the port: a poll that finds no command, which changes nothing (R142, R145). -/
def idlePoll (s : State) : Result := .next (dropped s)

end Sys2Proof.Machine
end

