-- ==== Sys2Proof/Machine/Btn.lean ====
section
/-!
DEFINITION. The Debounced Button operations (spec/41_button.md). All but `BTN.ATTACH` require
`attached = 1` (R72).
-/

namespace Sys2Proof.Machine

/-- `BTN.ATTACH pin, debounceTime, pullup, invert` (R73). -/
def execBtnAttach (pin : Byte) (debounceTime : BitVec 16) (pullup invert : Bool) (s : State) :
    Result :=
  .next { opStart s with btn := attachButton pin debounceTime pullup invert s.now s.raw }

/-- A query of the button: a boolean response, no state change. -/
def buttonQuery (answer : Bool) (s : State) : Result :=
  whenAttached s (respondBool (opStart s) answer)

/-- `BTN.READ` (R74). -/
def execBtnRead (s : State) : Result :=
  let s1 := buttonRead (opStart s)
  whenAttached s (respondBool s1 s1.btn.currentState)

/-- `BTN.ISPRESSED` (R75). -/
def execBtnIspressed (s : State) : Result := buttonQuery s.btn.currentState s

/-- `BTN.ISRELEASED` (R76). -/
def execBtnIsreleased (s : State) : Result := buttonQuery (!s.btn.currentState) s

/-- `BTN.WASPRESSED` (R77). -/
def execBtnWaspressed (s : State) : Result := buttonQuery (wasPressed s.btn) s

/-- `BTN.WASRELEASED` (R78). -/
def execBtnWasreleased (s : State) : Result := buttonQuery (wasReleased s.btn) s

/-- `BTN.PRESSEDFOR ms`, `ms` at its `CLK_BITS` low bits (R79, R51). -/
def execBtnPressedfor (ms : BitVec 32) (s : State) : Result :=
  buttonQuery (pressedFor s.cfg s.now s.btn (clkLow s.cfg ms.toNat)) s

/-- `BTN.RELEASEDFOR ms`, `ms` at its `CLK_BITS` low bits (R80, R51). -/
def execBtnReleasedfor (ms : BitVec 32) (s : State) : Result :=
  buttonQuery (releasedFor s.cfg s.now s.btn (clkLow s.cfg ms.toNat)) s

/-- `BTN.TGLREAD` (R81). -/
def execBtnTglread (s : State) : Result :=
  let s1 := buttonRead (opStart s)
  whenAttached s (respondBool s1 s1.btn.toggleState)

end Sys2Proof.Machine
end

