-- ==== Sys2Proof/Machine/Cv.lean ====
section
/-!
DEFINITION. The CV Command Processor operations (spec/44_cv_command.md). All but `CV.RSVD` require
the boot sequence to have run (R113, R169; log 7); all respond 0 (R59).
-/

namespace Sys2Proof.Machine

/-- The search CV: a nonzero value starts the diagnostic blink, zero turns the light off (R119). -/
def writeSearch (v : Byte) (s : State) : State :=
  if v ≠ 0 then { configure s .continuousBursts s.cfg.patSearch with flashFlag := true }
  else { turnOff s with flashFlag := false }

/-- `writeByte(idx, v, mode)` with its four special indices (R119; 90_conflicts.md C3). -/
def writeByte (idx : Nat) (v : Byte) (mode : CvMode) (s : State) : State :=
  if idx = s.cfg.idxVersion then s
  else if idx = s.cfg.idxVid then
    if v = s.cfg.resetSentinel then reboot (ackIn mode (setDefaults s)) else s
  else if idx = s.cfg.idxRestart then
    if v ≠ 0 then reboot s else s
  else if idx = s.cfg.idxSearch then writeSearch v s
  else ackIn mode (memWrite s idx v)

/-- `CV.VFY.SM cvNumber, value` (R115). -/
def execCvVfySm (cvNumber : BitVec 16) (value : Byte) (s : State) : Result :=
  whenBooted s (whenIndexOk cvNumber s
    (if memRead s (cvIndex cvNumber) = value then emit (opStart s) .ack else opStart s))

/-- `CV.VFY.POM cvNumber, value`: a documented no-op (R116). -/
def execCvVfyPom (cvNumber : BitVec 16) (_value : Byte) (s : State) : Result :=
  whenBooted s (whenIndexOk cvNumber s (opStart s))

/-- `CV.WR.SM cvNumber, value` (R117). -/
def execCvWrSm (cvNumber : BitVec 16) (value : Byte) (s : State) : Result :=
  whenBooted s (whenIndexOk cvNumber s
    (writeByte (cvIndex cvNumber) value .serviceMode (opStart s)))

/-- `CV.WR.POM cvNumber, value` (R118). -/
def execCvWrPom (cvNumber : BitVec 16) (value : Byte) (s : State) : Result :=
  whenBooted s (whenIndexOk cvNumber s
    (writeByte (cvIndex cvNumber) value .programmingOnMain (opStart s)))

/-- `CV.BITV.SM cvNumber, bitPos, bitVal` (R120). -/
def execCvBitvSm (cvNumber : BitVec 16) (bitPos : BitVec 3) (bitVal : Bool) (s : State) : Result :=
  whenBooted s (whenIndexOk cvNumber s
    (if bitOf (memRead s (cvIndex cvNumber)) bitPos.toNat = bitVal then emit (opStart s) .ack
     else opStart s))

/-- `CV.BITW.SM cvNumber, bitPos, bitVal` (R121). -/
def execCvBitwSm (cvNumber : BitVec 16) (bitPos : BitVec 3) (bitVal : Bool) (s : State) : Result :=
  whenBooted s (whenIndexOk cvNumber s
    (emit (memWrite (opStart s) (cvIndex cvNumber)
      (withBit (memRead s (cvIndex cvNumber)) bitPos.toNat bitVal)) .ack))

/-- `CV.BIT.POM cvNumber, bitPos, bitVal`, both values of `writeBit`: dropped (R122). -/
def execCvBitPom (_cvNumber : BitVec 16) (_bitPos : BitVec 3) (_bitVal _writeBit : Bool)
    (s : State) : Result :=
  whenBooted s (dropped s)

/-- `CV.RSVD`: dropped like every reserved encoding, in every state (R123, R57, R169). -/
def execCvRsvd (_cvNumber : BitVec 16) (_value : Byte) (s : State) : Result := .next (dropped s)

end Sys2Proof.Machine
end

