-- ==== Sys2Proof/Machine/Cvs.lean ====
section
/-!
DEFINITION. The CV Store operations (spec/43_cv_store.md).
-/

namespace Sys2Proof.Machine

/-- `CVS.INIT decoderType, version` (R97); a second one applies again (U3, D37). -/
def execCvsInit (decoderType version : Byte) (s : State) : Result :=
  .next { opStart s with defaults := defaultImage s.cfg decoderType version, inited := true }

/-- `CVS.NOTINIT` (R100). -/
def execCvsNotinit (s : State) : Result :=
  .next (respondBool (opStart s) (markerDiffers s.cfg (memRead s 0)))

/-- `CVS.SETDEF` (R101). -/
def execCvsSetdef (s : State) : Result :=
  if s.inited then .next (setDefaults (opStart s)) else .refused .setDefaultsBeforeInit

/-- `CVS.READ index` (R102). -/
def execCvsRead (index : BitVec 16) (s : State) : Result :=
  if s.cfg.n < index.toNat then .refused .indexOutOfRange
  else .next (respond (opStart s) (addrLow s.cfg (memRead s index.toNat).toNat))

/-- `CVS.WRITE index, value` (R103). -/
def execCvsWrite (index : BitVec 16) (value : Byte) (s : State) : Result :=
  if s.cfg.n < index.toNat then .refused .indexOutOfRange
  else .next (memWrite (opStart s) index.toNat value)

/-- `CVS.ADDRNOTSET` (R104). -/
def execCvsAddrnotset (s : State) : Result :=
  .next (respondBool (opStart s) (sentinelSet (memRead s s.cfg.idxAddrHigh)))

/-- `storedAddress()` (R105). -/
def storedAddress (s : State) : Nat :=
  deriveAddress s.cfg (memRead s s.cfg.idxAddrHigh) (memRead s s.cfg.idxAddrLow)
    (memRead s s.cfg.idxConfig) (memRead s s.cfg.idxLongHigh) (memRead s s.cfg.idxLongLow)

/-- `CVS.STOREDADDR` (R105). -/
def execCvsStoredaddr (s : State) : Result := .next (respond (opStart s) (storedAddress s))

end Sys2Proof.Machine
end

