-- ==== Sys2Proof/Machine/Fl.lean ====
section
/-!
DEFINITION. The Flash Pattern Engine operations (spec/42_flash.md). They require nothing (R169), but
a configuration with a 0 in a field its mode uses is `refuse` (R85).
-/

namespace Sys2Proof.Machine

/-- `FL.ON` (R86). -/
def execFlOn (s : State) : Result := .next (turnOn (opStart s))

/-- `FL.OFF` (R87). -/
def execFlOff (s : State) : Result := .next (turnOff (opStart s))

/-- A configuration by the host: refused where the pattern is unusable (R85, R88). -/
def hostConfigure (m : FlashMode) (q : Pattern) (s : State) : Result :=
  if patternUsable m q then .next (configure (opStart s) m q) else .refused .flashFieldZero

/-- `FL.SINGLE on, off, count, pause` (R88). -/
def execFlSingle (on off count pause : Byte) (s : State) : Result :=
  hostConfigure .singleBurst ⟨on, off, count, pause⟩ s

/-- `FL.CONT on, off, count, pause` (R89). -/
def execFlCont (on off count pause : Byte) (s : State) : Result :=
  hostConfigure .continuousBursts ⟨on, off, count, pause⟩ s

/-- `FL.UPDATE` (R90). -/
def execFlUpdate (s : State) : Result :=
  let s1 := flashUpdate (opStart s)
  .next (respondBool s1 s1.fl.led)

end Sys2Proof.Machine
end

