-- ==== Sys2Proof/Machine/Session.lean ====
section
/-!
DEFINITION. The Address-Programming Session (spec/45_addr_session.md): its part of the tick and the
`ACC` operation.
-/

namespace Sys2Proof.Machine

/-- `IDLE`: a press edge arms (R131). -/
def sessionIdle (s : State) : State :=
  if wasPressed s.btn then { turnOn s with sess := .armed } else s

/-- `ARMED`: the long hold, else the release (R132). -/
def sessionArmed (s : State) : State :=
  if pressedFor s.cfg s.now s.btn s.cfg.longHoldMs then reboot (setDefaults (turnOff s))
  else if !s.btn.currentState then
    { configure s .continuousBursts s.cfg.patFast with sess := .waiting }
  else s

/-- `WAITING`: a second press cancels (R133). -/
def sessionWaiting (s : State) : State :=
  if wasPressed s.btn then { turnOff s with sess := .idle } else s

/-- `CAPTURED`: the settle delay, then the reboot (R134). -/
def sessionCaptured (s : State) : State :=
  let s1 := { s with ts := expire s.cfg s.now s.ts }
  if firesNow s.cfg s.now s.ts then reboot s1 else s1

/-- `sessionTick()` (R130). -/
def sessionTick (s : State) : State :=
  match s.sess with
  | .idle => sessionIdle s
  | .armed => sessionArmed s
  | .waiting => sessionWaiting s
  | .captured => sessionCaptured s

/-- The capture: two writes, low byte first, the settle timer, the new session state (R135). -/
def capture (address : BitVec 11) (s : State) : State :=
  let bytes := encodeAddress address (bitOf (memRead s s.cfg.idxConfig) s.cfg.bitOut.val)
  let s1 := memWrite s s.cfg.idxAddrLow bytes.1
  let s2 := memWrite s1 s.cfg.idxAddrHigh bytes.2
  { s2 with ts := setTime s.cfg s.now s.ts s.cfg.settleMs, sess := .captured }

/-- The three conditions of `ACC`, in their order (R135, R155). -/
def captures (isMine isBroadcast : Bool) (s : State) : Bool :=
  s.sess == .waiting && accQualifies isMine isBroadcast &&
    bitOf (memRead s s.cfg.idxConfig) s.cfg.bitAcc.val

/-- `ACC address, isMine, isBroadcast` (R135). -/
def execAcc (address : BitVec 11) (isMine isBroadcast : Bool) (s : State) : Result :=
  whenBooted s (if captures isMine isBroadcast s then capture address (opStart s) else dropped s)

end Sys2Proof.Machine
end

