-- ==== Sys2Proof/Machine/Sys.lean ====
section
/-!
DEFINITION. The top-level operations (spec/46_top_level.md): the poll that finds nothing and the
periodic tick.
-/

namespace Sys2Proof.Machine

/-- `SYS.NOP` (R142). -/
def execSysNop (s : State) : Result := .next (opStart s)

/-- The tick's three parts in their order; after a `Reboot` the rest is skipped (R143). -/
def tick (s : State) : State :=
  let s1 := sessionTick (buttonRead (opStart s))
  if Event.reboot ∈ s1.events then s1 else flashUpdate s1

/-- `SYS.TICK` (R143). -/
def execSysTick (s : State) : Result := whenBooted s (tick s)

end Sys2Proof.Machine
end

