-- ==== Sys2Proof/Machine/Tmr.lean ====
section
/-!
DEFINITION. The Monotonic Timer operations on `TU` (spec/40_timer.md). They require nothing (R169).
-/

namespace Sys2Proof.Machine

/-- `TMR.SETTIME duration` (R64). -/
def execTmrSettime (duration : BitVec 32) (s : State) : Result :=
  .next { opStart s with tu := setTime s.cfg s.now s.tu duration.toNat }

/-- `TMR.EXPIRED` (R65). -/
def execTmrExpired (s : State) : Result :=
  .next (respondBool { opStart s with tu := expire s.cfg s.now s.tu } (firesNow s.cfg s.now s.tu))

/-- `TMR.RUNNING` (R66). -/
def execTmrRunning (s : State) : Result :=
  .next (respondBool (opStart s) (isRunning s.cfg s.now s.tu))

/-- `TMR.STOP` (R67). -/
def execTmrStop (s : State) : Result := .next { opStart s with tu := stopTimer s.tu }

/-- `TMR.START` (R68). -/
def execTmrStart (s : State) : Result :=
  .next { opStart s with tu := startTimer s.cfg s.now s.tu }

/-- `TMR.RESTART`, a synonym of `TMR.START` (R69). -/
def execTmrRestart (s : State) : Result :=
  .next { opStart s with tu := startTimer s.cfg s.now s.tu }

end Sys2Proof.Machine
end

