-- ==== Sys2Proof/Machine/Dispatch.lean ====
section
/-!
DEFINITION. One arm per operation of spec/opcode_table.json, each a direct call of its meaning.
-/

namespace Sys2Proof.Machine

def exec (i : Instr) (s : State) : Host.Outcome State Fault Refusal :=
  match i with
  | .sysNop => Sys2Proof.Machine.execSysNop s
  | .sysTick => Sys2Proof.Machine.execSysTick s
  | .tmrSettime duration => Sys2Proof.Machine.execTmrSettime duration s
  | .tmrExpired => Sys2Proof.Machine.execTmrExpired s
  | .tmrRunning => Sys2Proof.Machine.execTmrRunning s
  | .tmrStop => Sys2Proof.Machine.execTmrStop s
  | .tmrStart => Sys2Proof.Machine.execTmrStart s
  | .tmrRestart => Sys2Proof.Machine.execTmrRestart s
  | .btnAttach pin debounceTime pullup invert => Sys2Proof.Machine.execBtnAttach pin debounceTime pullup invert s
  | .btnRead => Sys2Proof.Machine.execBtnRead s
  | .btnIspressed => Sys2Proof.Machine.execBtnIspressed s
  | .btnIsreleased => Sys2Proof.Machine.execBtnIsreleased s
  | .btnWaspressed => Sys2Proof.Machine.execBtnWaspressed s
  | .btnWasreleased => Sys2Proof.Machine.execBtnWasreleased s
  | .btnPressedfor ms => Sys2Proof.Machine.execBtnPressedfor ms s
  | .btnReleasedfor ms => Sys2Proof.Machine.execBtnReleasedfor ms s
  | .btnTglread => Sys2Proof.Machine.execBtnTglread s
  | .flOn => Sys2Proof.Machine.execFlOn s
  | .flOff => Sys2Proof.Machine.execFlOff s
  | .flSingle on off count pause => Sys2Proof.Machine.execFlSingle on off count pause s
  | .flCont on off count pause => Sys2Proof.Machine.execFlCont on off count pause s
  | .flUpdate => Sys2Proof.Machine.execFlUpdate s
  | .cvsInit decoderType version => Sys2Proof.Machine.execCvsInit decoderType version s
  | .cvsNotinit => Sys2Proof.Machine.execCvsNotinit s
  | .cvsSetdef => Sys2Proof.Machine.execCvsSetdef s
  | .cvsRead index => Sys2Proof.Machine.execCvsRead index s
  | .cvsWrite index value => Sys2Proof.Machine.execCvsWrite index value s
  | .cvsAddrnotset => Sys2Proof.Machine.execCvsAddrnotset s
  | .cvsStoredaddr => Sys2Proof.Machine.execCvsStoredaddr s
  | .cvVfySm cvNumber value => Sys2Proof.Machine.execCvVfySm cvNumber value s
  | .cvVfyPom cvNumber value => Sys2Proof.Machine.execCvVfyPom cvNumber value s
  | .cvWrSm cvNumber value => Sys2Proof.Machine.execCvWrSm cvNumber value s
  | .cvWrPom cvNumber value => Sys2Proof.Machine.execCvWrPom cvNumber value s
  | .cvBitvSm cvNumber bitPos bitVal => Sys2Proof.Machine.execCvBitvSm cvNumber bitPos bitVal s
  | .cvBitwSm cvNumber bitPos bitVal => Sys2Proof.Machine.execCvBitwSm cvNumber bitPos bitVal s
  | .cvBitPom cvNumber bitPos bitVal writeBit => Sys2Proof.Machine.execCvBitPom cvNumber bitPos bitVal writeBit s
  | .cvRsvd cvNumber value => Sys2Proof.Machine.execCvRsvd cvNumber value s
  | .acc address isMine isBroadcast => Sys2Proof.Machine.execAcc address isMine isBroadcast s

end Sys2Proof.Machine
end

