-- ==== Sys2Proof/Machine/Step.lean ====
section
/-!
DEFINITION. One step: the environment's next stimulus, executed to completion (R8, R46, R141).
-/

namespace Sys2Proof.Machine

/-- Execute the word the environment presents, with its sampled inputs (R8, R62); a reserved word is
dropped (R57). -/
def issue (r : Request) (s : State) : Host.Outcome State Fault Refusal :=
  match decode r.word with
  | .instr i => exec i (present r s)
  | .reserved _ => dropReserved (present r s)

/-- One step of the machine: what the environment does next. Where it does nothing, the step is the
poll that finds no command (R145; log 4). -/
def step (s : State) : Host.Outcome State Fault Refusal :=
  match s.port with
  | [] => idlePoll s
  | .operation r :: rest => issue r { s with port := rest }
  | .powerCycle :: rest => .next (powerCycle { s with port := rest })

/-- `s` with the instruction whose `nbits` bits are `w` (0 above) presented as the NEXT operation,
the clock and the input line as `s` has them (log 6). -/
def State.withFetchWord (s : State) (nbits w : Nat) : State :=
  { s with port :=
      .operation ⟨BitVec.ofNat 40 (w % 2 ^ nbits), s.now, s.raw⟩ :: s.port }

end Sys2Proof.Machine
end

