-- ==== Sys2Proof/Machine/Boot.lean ====
section
/-!
DEFINITION. The pseudo-operations of spec/30_encoding.md R61, which expand to operations and have no
encoding of their own: the two named patterns and the boot sequence the host owes after every reset
(R168).
-/

namespace Sys2Proof.Machine

/-- `FL.FAST` (R61, R93). -/
def flFast (p : Params) : Instr :=
  .flCont p.patFast.on p.patFast.off p.patFast.count p.patFast.pause

/-- `FL.SEARCH` (R61, R93). -/
def flSearch (p : Params) : Instr :=
  .flCont p.patSearch.on p.patSearch.off p.patSearch.count p.patSearch.pause

/-- Step 1 of the boot sequence, `CVS.INIT` with the tags `DECODER_TYPE`, `VERSION` (R6, R61). -/
def bootInit (p : Params) : Instr := .cvsInit p.decoderType p.version

/-- Step 4 of the boot sequence, `BTN.ATTACH` with the parameters' arguments (R61, R168). -/
def bootAttach (p : Params) : Instr :=
  .btnAttach p.btnPin p.debounceMs p.btnPullup p.btnInvert

/-- One operation after another; a refusal ends the sequence. -/
def andThen (r : Result) (k : State → Result) : Result :=
  match r with
  | .next t => k t
  | .fault f => .fault f
  | .refused f => .refused f

/-- Step 3 of the boot sequence: `CVS.SETDEF` if the response of step 2 was 1 (R168). -/
def bootRepair (s : State) : Result := if s.rsp = 1 then exec .cvsSetdef s else .next s

/-- The boot sequence from a given first operation on, every operation of it at the sampled inputs of
`s` (R168, steps 1 to 4). -/
def bootFrom (init : Instr) (s : State) : Result :=
  andThen (exec init s) fun s1 =>
  andThen (exec .cvsNotinit s1) fun s2 =>
  andThen (bootRepair s2) fun s3 =>
  exec (bootAttach s3.cfg) s3

/-- `BOOT decoderType, version` (R168). -/
def bootWith (decoderType version : Byte) (s : State) : Result :=
  bootFrom (.cvsInit decoderType version) s

/-- `BOOT` (R61): the tags are the parameters `DECODER_TYPE`, `VERSION` (R6). -/
def boot (s : State) : Result := bootFrom (bootInit s.cfg) s

end Sys2Proof.Machine
end

