-- ==== Sys2Proof/WellFormed.lean ====
section
/-!
DEFINITION. Well-formed operands. The operand TYPES already say that an instruction fits its
format, so every term of `Instr` can be encoded. What is left to check are the operand values the
spec calls no operands of the operation at all, whatever the state: a CV index above `N` (R32, R102,
R103) and a 0 in a flash field the mode uses (R85, R176).
-/

namespace Sys2Proof

/-- The fields `FL.SINGLE` uses are all in 1..255: `on`, `count`, and `off` when `count` > 1 (R85). -/
def singleFieldsOk (on off count : Byte) : Bool :=
  on != 0 && count != 0 && (count == 1 || off != 0)

/-- The fields `FL.CONT` uses: those of `FL.SINGLE` and `pause` (R85). -/
def contFieldsOk (on off count pause : Byte) : Bool :=
  singleFieldsOk on off count && pause != 0

/-- The operands are ones the spec gives a meaning to (R85, R102, R103). -/
def Instr.wellFormed (p : Params) : Instr → Bool
  | .flSingle on off count _ => singleFieldsOk on off count
  | .flCont on off count pause => contFieldsOk on off count pause
  | .cvsRead index => decide (index.toNat ≤ p.n)
  | .cvsWrite index _ => decide (index.toNat ≤ p.n)
  | .sysNop => true
  | .sysTick => true
  | .tmrSettime _ => true
  | .tmrExpired => true
  | .tmrRunning => true
  | .tmrStop => true
  | .tmrStart => true
  | .tmrRestart => true
  | .btnAttach _ _ _ _ => true
  | .btnRead => true
  | .btnIspressed => true
  | .btnIsreleased => true
  | .btnWaspressed => true
  | .btnWasreleased => true
  | .btnPressedfor _ => true
  | .btnReleasedfor _ => true
  | .btnTglread => true
  | .flOn => true
  | .flOff => true
  | .flUpdate => true
  | .cvsInit _ _ => true
  | .cvsNotinit => true
  | .cvsSetdef => true
  | .cvsAddrnotset => true
  | .cvsStoredaddr => true
  | .cvVfySm _ _ => true
  | .cvVfyPom _ _ => true
  | .cvWrSm _ _ => true
  | .cvWrPom _ _ => true
  | .cvBitvSm _ _ _ => true
  | .cvBitwSm _ _ _ => true
  | .cvBitPom _ _ _ _ => true
  | .cvRsvd _ _ => true
  | .acc _ _ _ => true

end Sys2Proof
end

