-- ==== Sys2Proof/Safety.lean ====
section
/-!
DEFINITION. The terms in which claims are made: what the host owes before an operation (R169), the
invariant of the block's state, what a run shows to the outside (R146), and the sequences of
requests a run is made of (R141).
-/

namespace Sys2Proof.Machine

/-! ### What an operation requires -/

/-- The requirement column of R169's table; `CV.RSVD`, a reserved encoding, requires nothing
(log 7). -/
def requirementMet (i : Instr) (s : State) : Bool :=
  match i with
  | .sysNop => true
  | .sysTick => booted s
  | .tmrSettime _ => true
  | .tmrExpired => true
  | .tmrRunning => true
  | .tmrStop => true
  | .tmrStart => true
  | .tmrRestart => true
  | .btnAttach _ _ _ _ => true
  | .btnRead => s.btn.attached
  | .btnIspressed => s.btn.attached
  | .btnIsreleased => s.btn.attached
  | .btnWaspressed => s.btn.attached
  | .btnWasreleased => s.btn.attached
  | .btnPressedfor _ => s.btn.attached
  | .btnReleasedfor _ => s.btn.attached
  | .btnTglread => s.btn.attached
  | .flOn => true
  | .flOff => true
  | .flSingle _ _ _ _ => true
  | .flCont _ _ _ _ => true
  | .flUpdate => true
  | .cvsInit _ _ => true
  | .cvsNotinit => true
  | .cvsSetdef => s.inited
  | .cvsRead _ => true
  | .cvsWrite _ _ => true
  | .cvsAddrnotset => true
  | .cvsStoredaddr => true
  | .cvVfySm _ _ => booted s
  | .cvVfyPom _ _ => booted s
  | .cvWrSm _ _ => booted s
  | .cvWrPom _ _ => booted s
  | .cvBitvSm _ _ _ => booted s
  | .cvBitwSm _ _ _ => booted s
  | .cvBitPom _ _ _ _ => booted s
  | .cvRsvd _ _ => true
  | .acc _ _ _ => booted s

/-- The host keeps its side: legal operands and the required boot steps (R169, R180). -/
def properUse (i : Instr) (s : State) : Bool := i.wellFormed s.cfg && requirementMet i s

/-! ### The invariant -/

/-- A timer's fields fit `CLK_BITS`, and armed means a positive duration (R17, R70 (a)). -/
def TimerOk (p : Params) (t : Timer) : Prop :=
  t.duration < 2 ^ p.clkBits ∧ t.startTime < 2 ^ p.clkBits ∧ (t.armed = true → 0 < t.duration)

/-- The button's stored time fits, a change is a change, and an unattached button is at reset
(R19, R74). -/
def ButtonOk (p : Params) (b : Button) : Prop :=
  b.lastChangeTime < 2 ^ p.clkBits ∧
  (b.changed = true → b.currentState ≠ b.previousState) ∧
  (b.attached = false → b = Button.reset)

/-- A pattern in progress never meets a 0: the fields its mode uses and the running interval are
positive, and the count of flashes is inside the burst (R85, R90). -/
def PatternOk (f : Flash) : Prop :=
  patternUsable f.mode ⟨f.onTicks, f.offTicks, f.burstCount, f.pauseTicks⟩ = true ∧
  f.ticksRemaining ≠ 0 ∧
  (f.led = true → f.burstsSoFar.toNat < f.burstCount.toNat) ∧
  (f.led = false → 1 ≤ f.burstsSoFar.toNat ∧ f.burstsSoFar.toNat ≤ f.burstCount.toNat) ∧
  (f.mode = .singleBurst → f.burstsSoFar.toNat < f.burstCount.toNat)

/-- The indicator: steady modes drive their level, timed modes keep their pattern (R86 to R90). -/
def FlashOk (p : Params) (f : Flash) : Prop :=
  f.lastTick < 2 ^ p.clkBits ∧
  (f.mode = .alwaysOn → f.led = true) ∧
  (f.mode = .alwaysOff → f.led = false) ∧
  (timedMode f = true → PatternOk f)

/-- The table lists indices 0..`N` in canonical form, `defaults` has `N+1` bytes, and it is the
factory image of some pair of tags once `CVS.INIT` has run, and zeros before (R12, R13, R97). -/
def StoreOk (s : State) : Prop :=
  Memory.wf s.table = true ∧ Memory.within s.cfg.n s.table = true ∧
  s.defaults.length = s.cfg.n + 1 ∧
  (s.inited = false → s.defaults = List.replicate (s.cfg.n + 1) 0) ∧
  (s.inited = true → ∃ decoderType version, s.defaults = defaultImage s.cfg decoderType version)

/-- A session in progress was booted; the settle timer is armed in `CAPTURED` only, and it is armed
there (given that the settle time is not 0 in `CLK_BITS` bits, log 8) (R130 to R135). -/
def SessionOk (s : State) : Prop :=
  (s.sess ≠ .idle → booted s = true) ∧
  (s.ts.armed = true → s.sess = .captured) ∧
  (s.sess = .captured → 0 < clkLow s.cfg s.cfg.settleMs → s.ts.armed = true)

/-- The four event lists an operation can end with (R124). -/
def legalEvents : List (List Event) := [[], [.ack], [.reboot], [.ack, .reboot]]

/-- The last answer fits: a response of `ADDR_BITS` bits, one of the four event lists, and a sampled
clock of `CLK_BITS` bits (R8, R124). -/
def AnswerOk (s : State) : Prop :=
  s.rsp < 2 ^ s.cfg.addrBits ∧ s.events ∈ legalEvents ∧ s.now < 2 ^ s.cfg.clkBits

/-- The invariant of the machine: legal parameters and a consistent state. -/
def StateOk (s : State) : Prop :=
  s.cfg.Legal ∧ StoreOk s ∧ TimerOk s.cfg s.tu ∧ TimerOk s.cfg s.ts ∧ ButtonOk s.cfg s.btn ∧
  FlashOk s.cfg s.fl ∧ SessionOk s ∧ AnswerOk s

/-! ### What the outside sees -/

/-- What one operation shows: its response, its events, the level of the indicator line (R146, R24). -/
structure Observation where
  rsp    : Nat
  events : List Event
  led    : Bool
deriving DecidableEq, Repr

/-- The observation after an operation (R146). -/
def observe (s : State) : Observation := ⟨s.rsp, s.events, s.fl.led⟩

/-! ### Runs -/

/-- Issue requests one after another; a refusal ends the run (R141, R146). -/
def runRequests : List Request → State → Result
  | [], s => .next s
  | r :: rest, s => andThen (issue r s) (runRequests rest)

/-- An operation at given inputs, as a request (R46). -/
def requestOf (i : Instr) (now : Nat) (raw : Bool) : Request := ⟨encode i, now, raw⟩

/-- `k` updates of the indicator, exactly one tick period apart, the first one period after `t`
(R91). -/
def updatesFrom (p : Params) (t : Nat) (raw : Bool) : Nat → List Request
  | 0 => []
  | k + 1 => requestOf .flUpdate (t + p.tickMs) raw :: updatesFrom p (t + p.tickMs) raw k

/-- The indicator line high or low: `n` flashes of `on` steps, `off` steps apart, seen `j` steps
after the first one began (R91). -/
def burstLevel (on off n j : Nat) : Bool :=
  decide (j < n * on + (n - 1) * off ∧ j % (on + off) < on)

end Sys2Proof.Machine
end

