-- ==== Sys2Proof/Certificates/Slice0/Obligations.lean ====
section
/-!
DEFINITION. The statements for the provers. Every statement about a result is an equation for the
whole next state, or names the table's contents through `memRead` and every other field by an
equation, so that it says the frame too. `s` ranges over every state, hence over every value of the
parameters in `s.cfg`.
-/

open Sys2Proof Sys2Proof.Machine

/-! ### Words and steps -/

/-- R60, R62: no operand bit of any instruction is lost on the way through its word. -/
def Obligations.DecodeEncodeGivesBackEveryInstruction : Prop :=
  ∀ i : Instr, decode (encode i) = .instr i

/-- R58, R62: the word the encoder writes for a decoded word keeps every operand bit of it, those of
`arg` and those that stand in the opcode (R54, R55), and belongs to the same row. -/
def Obligations.EncodeDecodeKeepsEveryOperandBit : Prop :=
  ∀ (w : OpWord) (i : Instr), decode w = .instr i →
    argOf (encode i) &&& operandMask (opcodeOf w) = argOf w &&& operandMask (opcodeOf w) ∧
    opcodeOf (encode i) &&& opcodeOperandMask (opcodeOf w) =
      opcodeOf w &&& opcodeOperandMask (opcodeOf w) ∧
    ∀ r ∈ opcodeRows, r.selects (opcodeOf (encode i)) = r.selects (opcodeOf w)

/-- R58: ignored bits do not change decoding: the `arg` bits outside the format's operands, `OPW[32]`
of the verify and write commands, `OPW[33:32]` of `CV.RSVD`. -/
def Obligations.IgnoredBitsDoNotChangeDecoding : Prop :=
  (∀ w w' : OpWord, opcodeOf w = opcodeOf w' →
    argOf w &&& operandMask (opcodeOf w) = argOf w' &&& operandMask (opcodeOf w) →
    decode w = decode w') ∧
  (∀ (op : Opcode) (a : Arg), op ∈ [(0x54 : Opcode), 0x56, 0x5C, 0x5E] →
    decode (assemble (op ||| 1) a) = decode (assemble op a)) ∧
  (∀ (op : Opcode) (a : Arg), op ∈ [(0x51 : Opcode), 0x52, 0x53] →
    decode (assemble op a) = decode (assemble 0x50 a))

/-- Words the spec writes out beside its rules (R47, R60, R61 and the examples of 40 to 45). -/
def Obligations.SampleWordsDecodeAsTheSpecAssembles : Prop :=
  decode 0x0100000000 = .instr .sysTick ∧
  decode 0x1000000064 = .instr (.tmrSettime 100) ∧
  decode 0x2000001900 = .instr (.btnAttach 0 25 false false) ∧
  decode 0x2600001388 = .instr (.btnPressedfor 5000) ∧
  decode 0x3202030201 = .instr (.flSingle 2 3 2 1) ∧
  decode 0x4400000900 = .instr (.cvsWrite 9 0x00) ∧
  decode 0x5C0008000D = .instr (.cvWrSm 8 0x0D) ∧
  decode 0x59001D00FE = .instr (.cvBitwSm 29 6 true) ∧
  decode 0x6100000025 = .instr (.acc 37 false true)

/-- R57 (the spec's decision D33): the reserved words, nibble by nibble, are dropped in every state,
the `CV` operation 0b00 among them (log 7); every other word is an operation (R62). -/
def Obligations.ReservedWordsAreDropped : Prop :=
  ∀ (r : Request) (s : State),
    let unit := (opcodeOf r.word).toNat / 16
    let fn := (opcodeOf r.word).toNat % 16
    let isReserved := 7 ≤ unit ∨ (unit = 0 ∧ 2 ≤ fn) ∨ (unit = 1 ∧ 6 ≤ fn) ∨ (unit = 2 ∧ 9 ≤ fn) ∨
      (unit = 3 ∧ 5 ≤ fn) ∨ (unit = 4 ∧ 7 ≤ fn) ∨ (unit = 6 ∧ 4 ≤ fn) ∨ (unit = 5 ∧ fn < 4)
    (isReserved → issue r s = .next
      { s with now := r.now % 2 ^ s.cfg.clkBits, raw := r.raw, rsp := 0, events := [] }) ∧
    (¬ isReserved → ∃ i, decode r.word = .instr i)

/-- R8, R46: a step takes the next request from the port, samples its inputs and runs the operation
its word decodes to. -/
def Obligations.StepRunsTheDecodedInstruction : Prop :=
  ∀ (s : State) (r : Request) (rest : List Stimulus) (i : Instr),
    s.port = .operation r :: rest → decode r.word = .instr i →
    step s = exec i
      { s with port := rest, now := r.now % 2 ^ s.cfg.clkBits, raw := r.raw }

/-- R164: a power cycle gives `resetState(table)`; the rest of the port is still to come. The samples
`now` and `raw` are the model's own fields and stay (log 4). -/
def Obligations.PowerCycleGivesTheResetState : Prop :=
  ∀ (s : State) (rest : List Stimulus), s.port = .powerCycle :: rest →
    step s = .next
      { State.resetWith s.cfg s.table with now := s.now, raw := s.raw, port := rest }

/-- The model's choice (log 4, from R145): with nothing at the port a step is the poll that finds no
command. -/
def Obligations.EmptyPortStepsAsNop : Prop :=
  ∀ s : State, s.port = [] → step s = exec .sysNop s

/-- R26: the reset value of every element, whatever the table holds. -/
def Obligations.ResetStateHoldsTheResetValues : Prop :=
  ∀ (p : Params) (m : Memory),
    let s := State.resetWith p m
    s.table = m ∧ s.defaults.length = p.n + 1 ∧ (∀ i, defaultAt s i = 0) ∧ s.inited = false ∧
    s.tu = ⟨false, 0, 0⟩ ∧ s.ts = ⟨false, 0, 0⟩ ∧
    s.btn = ⟨0, 0, false, false, false, false, false, 0, false, false⟩ ∧
    s.fl = ⟨0, 0, 0, 0, .alwaysOff, 0, 0, false, 0⟩ ∧
    s.sess = .idle ∧ s.flashFlag = false

/-- The invariant holds at reset, for the reference parameters and for all others, over every table
in canonical form (the table is retained, R26). -/
def Obligations.ResetStateIsConsistent : Prop :=
  StateOk State.reset ∧
  ∀ (p : Params) (m : Memory), p.Legal → Memory.wf m = true → Memory.within p.n m = true →
    StateOk (State.resetWith p m)

/-- Every step keeps the invariant: R17 and R70 (a) for the timers, R85 and R90 for the indicator,
R12, R13 and R97 for the store and the image, R130 to R135 for the session, R124 for the events. That
the settle timer is armed in `CAPTURED` is claimed only where `SETTLE_MS` is not 0 in `CLK_BITS` bits
(log 8). -/
def Obligations.StepKeepsTheStateConsistent : Prop :=
  ∀ s t : State, StateOk s → step s = .next t → StateOk t

/-- R145, R167: a step takes exactly one stimulus, and no step changes a parameter. -/
def Obligations.StepTakesOneStimulusAndKeepsParameters : Prop :=
  ∀ s t : State, step s = .next t → t.port = s.port.tail ∧ t.cfg = s.cfg

/-- R169, R180: an operation completes exactly where its operands are legal and its requirement is
met; nothing else stops it. That `CV.RSVD` requires nothing is the model's reading (log 7). -/
def Obligations.OperationsCompleteExactlyOnProperUse : Prop :=
  ∀ (i : Instr) (s : State), (∃ t, exec i s = .next t) ↔ properUse i s = true

/-- R72, R85, R101, R102, R103, R169: the refusals, by name. -/
def Obligations.ImproperUseIsRefusedByName : Prop :=
  ∀ s : State,
    (s.btn.attached = false →
      (∀ i ∈ [Instr.btnRead, .btnIspressed, .btnIsreleased, .btnWaspressed, .btnWasreleased,
        .btnTglread], exec i s = .refused .buttonNotAttached) ∧
      ∀ ms, exec (.btnPressedfor ms) s = .refused .buttonNotAttached ∧
        exec (.btnReleasedfor ms) s = .refused .buttonNotAttached) ∧
    ((s.inited && s.btn.attached) = false →
      exec .sysTick s = .refused .notBooted ∧
      (∀ n v, exec (.cvVfySm n v) s = .refused .notBooted ∧
        exec (.cvVfyPom n v) s = .refused .notBooted ∧
        exec (.cvWrSm n v) s = .refused .notBooted ∧
        exec (.cvWrPom n v) s = .refused .notBooted) ∧
      (∀ n p d k, exec (.cvBitvSm n p d) s = .refused .notBooted ∧
        exec (.cvBitwSm n p d) s = .refused .notBooted ∧
        exec (.cvBitPom n p d k) s = .refused .notBooted) ∧
      ∀ a m b, exec (.acc a m b) s = .refused .notBooted) ∧
    (s.inited = false → exec .cvsSetdef s = .refused .setDefaultsBeforeInit) ∧
    (∀ (index : BitVec 16) (v : Byte), s.cfg.n < index.toNat →
      exec (.cvsRead index) s = .refused .indexOutOfRange ∧
      exec (.cvsWrite index v) s = .refused .indexOutOfRange) ∧
    (∀ on off count pause : Byte,
      (on.toNat = 0 ∨ count.toNat = 0 ∨ (1 < count.toNat ∧ off.toNat = 0) →
        exec (.flSingle on off count pause) s = .refused .flashFieldZero) ∧
      (on.toNat = 0 ∨ count.toNat = 0 ∨ (1 < count.toNat ∧ off.toNat = 0) ∨ pause.toNat = 0 →
        exec (.flCont on off count pause) s = .refused .flashFieldZero))

/-! ### The tick and the session -/

/-- R142, R57 (the spec's decision D33): the poll that finds no command changes nothing, and it is
what every reserved encoding behaves as in every state, the `CV` operation 0b00 among them (R123; before
the boot sequence by log 7). -/
def Obligations.NopChangesNothing : Prop :=
  (∀ w : OpWord, opcodeOf w = 0x00 → decode w = .instr .sysNop) ∧
  (∀ s : State, exec .sysNop s = .next { s with rsp := 0, events := [] }) ∧
  ∀ (r : Request) (s : State),
    ((∃ why, decode r.word = .reserved why) ∨ ∃ n v, decode r.word = .instr (.cvRsvd n v)) →
    issue r s = exec .sysNop { s with now := r.now % 2 ^ s.cfg.clkBits, raw := r.raw }

/-- R131 in R143's order: in `IDLE` a press edge accepted by this tick's read lights the indicator
and arms; otherwise the pattern advances. -/
def Obligations.TickIdleArmsOnAPressEdge : Prop :=
  ∀ s : State, s.inited = true → s.btn.attached = true → s.sess = .idle →
    let b := readButton s.cfg s.now s.raw s.btn
    exec .sysTick s = .next
      (if b.currentState = true ∧ b.changed = true then
        { s with btn := b, fl := { s.fl with mode := .alwaysOn, led := true }, sess := .armed,
                 rsp := 0, events := [] }
      else { s with btn := b, fl := updateFlash s.cfg s.now s.fl, rsp := 0, events := [] })

/-- R132, long hold: factory reset and `Reboot`, no `Ack`; the state is the reset state over the
written table (R153). -/
def Obligations.TickArmedLongHoldResetsToFactory : Prop :=
  ∀ s : State, s.inited = true → s.btn.attached = true → s.sess = .armed →
    Memory.wf s.table = true →
    (readButton s.cfg s.now s.raw s.btn).currentState = true →
    s.cfg.longHoldMs ≤
      clkSub s.cfg s.now (readButton s.cfg s.now s.raw s.btn).lastChangeTime →
    ∃ t, exec .sysTick s = .next t ∧
      (∀ k, memRead t k = if k ≤ s.cfg.n then defaultAt s k else memRead s k) ∧
      t = { State.resetWith s.cfg t.table with
              now := s.now, raw := s.raw, events := [.reboot], port := s.port }

/-- R132, the other two cases: the release starts the capture loop and its fast blink, which the
same tick does not advance; while the button is held for less than the long hold, the session
waits. -/
def Obligations.TickArmedReleaseStartsTheCaptureLoop : Prop :=
  ∀ s : State, s.inited = true → s.btn.attached = true → s.sess = .armed → 0 < s.cfg.tickMs →
    let b := readButton s.cfg s.now s.raw s.btn
    (b.currentState = false →
      exec .sysTick s = .next
        { s with
            btn := b, sess := .waiting, rsp := 0, events := []
            fl := ⟨s.cfg.patFast.on, s.cfg.patFast.off, s.cfg.patFast.count, s.cfg.patFast.pause,
                    .continuousBursts, s.cfg.patFast.on, 0, true, s.now⟩ }) ∧
    (b.currentState = true → clkSub s.cfg s.now b.lastChangeTime < s.cfg.longHoldMs →
      exec .sysTick s = .next
        { s with btn := b, fl := updateFlash s.cfg s.now s.fl, rsp := 0, events := [] })

/-- R133: in `WAITING` a press edge darkens the indicator and ends the session; nothing else does,
and there is no time-out. -/
def Obligations.TickWaitingCancelsOnAPressEdge : Prop :=
  ∀ s : State, s.inited = true → s.btn.attached = true → s.sess = .waiting →
    let b := readButton s.cfg s.now s.raw s.btn
    exec .sysTick s = .next
      (if b.currentState = true ∧ b.changed = true then
        { s with btn := b, fl := { s.fl with mode := .alwaysOff, led := false }, sess := .idle,
                 rsp := 0, events := [] }
      else { s with btn := b, fl := updateFlash s.cfg s.now s.fl, rsp := 0, events := [] })

/-- R134: in `CAPTURED` the tick at which the settle timer has expired reboots, keeping the table;
an earlier one only reads the button and advances the pattern. -/
def Obligations.TickCapturedRebootsAfterTheSettleDelay : Prop :=
  ∀ s : State, s.inited = true → s.btn.attached = true → s.sess = .captured →
    exec .sysTick s = .next
      (if s.ts.armed = true ∧ s.ts.duration ≤ clkSub s.cfg s.now s.ts.startTime then
        { State.resetWith s.cfg s.table with
            now := s.now, raw := s.raw, events := [.reboot], port := s.port }
      else
        { s with btn := readButton s.cfg s.now s.raw s.btn,
                 fl := updateFlash s.cfg s.now s.fl, rsp := 0, events := [] })

/-- R144: a tick reads no CV. Over another table it completes alike, with the same next state but
for the table. -/
def Obligations.TickDoesNotReadTheTable : Prop :=
  ∀ (s t : State) (m : Memory), exec .sysTick s = .next t →
    ∃ u, exec .sysTick { s with table := m } = .next u ∧ { u with table := t.table } = t

/-- R138 (b): from `WAITING` one of three things ends the wait: a press edge in a tick (to `IDLE`,
nothing written, no event), a qualifying `ACC` (to `CAPTURED`), a rebooting `CV.WR`. -/
def Obligations.WaitingEndsInThreeWays : Prop :=
  ∀ (i : Instr) (s t : State), s.sess = .waiting → exec i s = .next t → t.sess ≠ .waiting →
    (i = .sysTick ∧ wasPressed (readButton s.cfg s.now s.raw s.btn) = true ∧ t.sess = .idle ∧
      t.table = s.table ∧ t.events = []) ∨
    (∃ a m b, i = .acc a m b ∧ (m = true ∨ b = true) ∧ t.sess = .captured ∧ t.events = []) ∨
    (∃ n v, (i = .cvWrSm n v ∨ i = .cvWrPom n v) ∧ Event.reboot ∈ t.events ∧ t.sess = .idle)

/-- R135 and R136: `ACC` captures in `WAITING`, if it is addressed to this decoder or to any and the
store has the accessory role; then the two bytes of R109 are written, the settle timer is set and
the session is `CAPTURED`. In every other case it is dropped. That the settle time is cut to the width
of the clock, and the timer disarmed where that leaves 0, is log 8. -/
def Obligations.AccCapturesOrIsDropped : Prop :=
  (∀ w : OpWord, (opcodeOf w).toNat / 4 = 0b011000 → decode w = .instr
    (.acc ((argOf w).setWidth 11) ((opcodeOf w).getLsbD 1) ((opcodeOf w).getLsbD 0))) ∧
  ∀ (a : BitVec 11) (isMine isBroadcast : Bool) (s : State),
    s.inited = true → s.btn.attached = true → Memory.wf s.table = true →
    let cfgByte := memRead s s.cfg.idxConfig
    let output := cfgByte.getLsbD s.cfg.bitOut.val
    let d := s.cfg.settleMs % 2 ^ s.cfg.clkBits
    if s.sess = .waiting ∧ (isBroadcast = true ∨ isMine = true) ∧
        cfgByte.getLsbD s.cfg.bitAcc.val = true then
      ∃ t, exec (.acc a isMine isBroadcast) s = .next t ∧
        (memRead t s.cfg.idxAddrHigh).toNat =
          (if output then a.toNat / 256 else (a.toNat + 1) / 64 % 8) ∧
        (s.cfg.idxAddrLow ≠ s.cfg.idxAddrHigh → (memRead t s.cfg.idxAddrLow).toNat =
          (if output then a.toNat % 256 else (a.toNat + 1) % 64)) ∧
        (∀ k, k ≠ s.cfg.idxAddrLow → k ≠ s.cfg.idxAddrHigh → memRead t k = memRead s k) ∧
        t = { s with
                table := t.table, sess := .captured, rsp := 0, events := []
                ts := if 0 < d then ⟨true, d, s.now⟩ else ⟨false, 0, s.ts.startTime⟩ }
    else exec (.acc a isMine isBroadcast) s = .next { s with rsp := 0, events := [] }

/-! ### Timers -/

/-- R64; that a duration of 0 disarms is the spec's decision D3. -/
def Obligations.SetTimeArmsOrDisarms : Prop :=
  (∀ w : OpWord, opcodeOf w = 0x10 → decode w = .instr (.tmrSettime (argOf w))) ∧
  ∀ (duration : BitVec 32) (s : State),
    let d := duration.toNat % 2 ^ s.cfg.clkBits
    exec (.tmrSettime duration) s = .next
      { s with
          tu := if 0 < d then ⟨true, d, s.now⟩ else ⟨false, 0, s.tu.startTime⟩
          rsp := 0, events := [] }

/-- R65; the boundary "elapsed at exactly the duration" is the spec's decision D4. -/
def Obligations.ExpiredFiresAndDisarms : Prop :=
  (∀ w : OpWord, opcodeOf w = 0x11 → decode w = .instr .tmrExpired) ∧
  ∀ s : State, exec .tmrExpired s = .next
    (if s.tu.armed = true ∧ s.tu.duration ≤ clkSub s.cfg s.now s.tu.startTime then
      { s with tu := { s.tu with armed := false }, rsp := 1, events := [] }
    else { s with rsp := 0, events := [] })

/-- R66; between elapsing and firing it answers 0 (the spec's decision D6). -/
def Obligations.RunningReportsArmedAndNotElapsed : Prop :=
  (∀ w : OpWord, opcodeOf w = 0x12 → decode w = .instr .tmrRunning) ∧
  ∀ s : State, exec .tmrRunning s = .next
    { s with
        rsp := if s.tu.armed = true ∧ clkSub s.cfg s.now s.tu.startTime < s.tu.duration then 1
               else 0
        events := [] }

/-- R67: only `armed` is cleared (that `duration` and `startTime` are kept is the spec's decision D5);
from then on, through any run of requests without a `TMR.SETTIME`, `TMR.START` or `TMR.RESTART`, both
queries answer 0. -/
def Obligations.StopDisarmsWithoutSignalling : Prop :=
  (∀ w : OpWord, opcodeOf w = 0x13 → decode w = .instr .tmrStop) ∧
  (∀ s : State, exec .tmrStop s = .next
    { s with tu := { s.tu with armed := false }, rsp := 0, events := [] }) ∧
  ∀ (s t u : State) (rs : List Request) (r : Request), exec .tmrStop s = .next t →
    (∀ q ∈ rs, (∀ d, decode q.word ≠ .instr (.tmrSettime d)) ∧
      decode q.word ≠ .instr .tmrStart ∧ decode q.word ≠ .instr .tmrRestart) →
    runRequests rs t = .next u →
    (decode r.word = .instr .tmrExpired ∨ decode r.word = .instr .tmrRunning) →
    ∃ v, issue r u = .next v ∧ v.rsp = 0

/-- R68, R69; that a set duration of 0 leaves the timer disarmed is the spec's own decision D3. -/
def Obligations.StartAndRestartArmWithTheSetDuration : Prop :=
  (∀ w : OpWord, (opcodeOf w = 0x14 → decode w = .instr .tmrStart) ∧
    (opcodeOf w = 0x15 → decode w = .instr .tmrRestart)) ∧
  ∀ s : State, s.tu.duration < 2 ^ s.cfg.clkBits →
    ∀ i ∈ [Instr.tmrStart, Instr.tmrRestart], exec i s = .next
      { s with
          tu := if 0 < s.tu.duration then ⟨true, s.tu.duration, s.now⟩
                else { s.tu with armed := false }
          rsp := 0, events := [] }

/-- R11, R63, R174: with a timer armed for `d` at clock value `t0` and queried `e` milliseconds
later, `expired` answers 1 exactly if `d` ≤ `e` and `running` exactly if `e` < `d`, whether the clock
wrapped in between or not. -/
def Obligations.TimerAnswersByElapsedTimeAcrossTheWrap : Prop :=
  ∀ (s : State) (t0 d e : Nat), t0 < 2 ^ s.cfg.clkBits → e < 2 ^ s.cfg.clkBits →
    s.tu = ⟨true, d, t0⟩ → s.now = (t0 + e) % 2 ^ s.cfg.clkBits →
    (∃ t, exec .tmrExpired s = .next t ∧ t.rsp = if d ≤ e then 1 else 0) ∧
    (∃ t, exec .tmrRunning s = .next t ∧ t.rsp = if e < d then 1 else 0)

/-- R65, R70 (b): once `TMR.EXPIRED` has answered 1, it answers 0 after every run of requests in
which no operation is a `TMR.SETTIME`, `TMR.START` or `TMR.RESTART`. -/
def Obligations.TimerFiresAtMostOncePerArming : Prop :=
  ∀ (s t u : State) (rs : List Request) (r : Request),
    exec .tmrExpired s = .next t → t.rsp = 1 →
    (∀ q ∈ rs, (∀ d, decode q.word ≠ .instr (.tmrSettime d)) ∧
      decode q.word ≠ .instr .tmrStart ∧ decode q.word ≠ .instr .tmrRestart) →
    runRequests rs t = .next u → decode r.word = .instr .tmrExpired →
    ∃ v, issue r u = .next v ∧ v.rsp = 0

/-- R18, R144: only the `TMR` operations and a reboot change the user timer. -/
def Obligations.UserTimerChangesOnlyByTimerOperations : Prop :=
  ∀ (i : Instr) (s t : State), exec i s = .next t → t.tu ≠ s.tu →
    (∃ d, i = .tmrSettime d) ∨ i ∈ [Instr.tmrExpired, .tmrStop, .tmrStart, .tmrRestart] ∨
    Event.reboot ∈ t.events

/-! ### The button -/

/-- R73; what the initial sample sets is the spec's decision D10. -/
def Obligations.AttachConfiguresAndSamples : Prop :=
  (∀ w : OpWord, opcodeOf w = 0x20 → decode w = .instr (.btnAttach ((argOf w).extractLsb' 24 8)
    ((argOf w).extractLsb' 8 16) ((argOf w).getLsbD 1) ((argOf w).getLsbD 0))) ∧
  ∀ (pin : Byte) (debounceTime : BitVec 16) (pullup invert : Bool) (s : State),
    exec (.btnAttach pin debounceTime pullup invert) s = .next
      { s with
          btn := { rawPin := pin, debounce := debounceTime, pullupEnabled := pullup,
                   invertLogic := invert, currentState := s.raw ^^ invert,
                   previousState := s.raw ^^ invert, changed := false, lastChangeTime := s.now,
                   toggleState := false, attached := true }
          rsp := 0, events := [] }

/-- R74, R81: one evaluation of the debounce rule, reported as `currentState` by `BTN.READ` and as
`toggleState` by `BTN.TGLREAD`. -/
def Obligations.ReadFollowsTheDebounceRule : Prop :=
  (∀ w : OpWord, (opcodeOf w = 0x21 → decode w = .instr .btnRead) ∧
    (opcodeOf w = 0x28 → decode w = .instr .btnTglread)) ∧
  ∀ s : State, s.btn.attached = true →
    let b := s.btn
    let sample := s.raw ^^ b.invertLogic
    let b' :=
      if clkSub s.cfg s.now b.lastChangeTime < b.debounce.toNat then { b with changed := false }
      else
        { b with
            previousState := b.currentState, currentState := sample
            changed := sample != b.currentState
            lastChangeTime := if sample != b.currentState then s.now else b.lastChangeTime
            toggleState := if sample && !b.currentState then !b.toggleState else b.toggleState }
    exec .btnRead s = .next { s with btn := b', rsp := b'.currentState.toNat, events := [] } ∧
    exec .btnTglread s = .next { s with btn := b', rsp := b'.toggleState.toNat, events := [] }

/-- R75, R76, R77, R78. -/
def Obligations.ButtonQueriesReportTheAcceptedState : Prop :=
  (∀ w : OpWord, (opcodeOf w = 0x22 → decode w = .instr .btnIspressed) ∧
    (opcodeOf w = 0x23 → decode w = .instr .btnIsreleased) ∧
    (opcodeOf w = 0x24 → decode w = .instr .btnWaspressed) ∧
    (opcodeOf w = 0x25 → decode w = .instr .btnWasreleased)) ∧
  ∀ s : State, s.btn.attached = true →
    exec .btnIspressed s = .next
      { s with rsp := if s.btn.currentState = true then 1 else 0, events := [] } ∧
    exec .btnIsreleased s = .next
      { s with rsp := if s.btn.currentState = true then 0 else 1, events := [] } ∧
    exec .btnWaspressed s = .next
      { s with
          rsp := if s.btn.currentState = true ∧ s.btn.changed = true then 1 else 0
          events := [] } ∧
    exec .btnWasreleased s = .next
      { s with
          rsp := if s.btn.currentState = false ∧ s.btn.changed = true then 1 else 0
          events := [] }

/-- R79, R80; the end point of the measure, the query's `now`, is the spec's decision D8. -/
def Obligations.DurationQueriesMeasureFromTheAcceptedChange : Prop :=
  (∀ w : OpWord, (opcodeOf w = 0x26 → decode w = .instr (.btnPressedfor (argOf w))) ∧
    (opcodeOf w = 0x27 → decode w = .instr (.btnReleasedfor (argOf w)))) ∧
  ∀ (ms : BitVec 32) (s : State), s.btn.attached = true →
    let m := ms.toNat % 2 ^ s.cfg.clkBits
    let since := clkSub s.cfg s.now s.btn.lastChangeTime
    exec (.btnPressedfor ms) s = .next
      { s with rsp := if s.btn.currentState = true ∧ m ≤ since then 1 else 0, events := [] } ∧
    exec (.btnReleasedfor ms) s = .next
      { s with rsp := if s.btn.currentState = false ∧ m ≤ since then 1 else 0, events := [] }

/-- R82 (a): however the line bounces and however often it is read, reads inside the debounce window
accept nothing. -/
def Obligations.ReadsInsideTheWindowAcceptNothing : Prop :=
  ∀ (rs : List Request) (s : State), rs ≠ [] → s.btn.attached = true →
    (∀ r ∈ rs, (decode r.word = .instr .btnRead ∨ decode r.word = .instr .btnTglread) ∧
      clkSub s.cfg (r.now % 2 ^ s.cfg.clkBits) s.btn.lastChangeTime < s.btn.debounce.toNat) →
    ∃ t, runRequests rs s = .next t ∧ t.btn = { s.btn with changed := false }

/-- R82 (b): after a read, `BTN.WASPRESSED` answers 1 exactly if that read accepted a press, and no
two reads in a row are both followed by a 1. -/
def Obligations.PressIsReportedByExactlyOneRead : Prop :=
  ∀ (s t t' u u' : State) (now : Nat) (raw : Bool),
    exec .btnRead s = .next t → exec .btnWaspressed t = .next u →
    (u.rsp = 1 ↔ s.btn.debounce.toNat ≤ clkSub s.cfg s.now s.btn.lastChangeTime ∧
      (s.raw ^^ s.btn.invertLogic) = true ∧ s.btn.currentState = false) ∧
    (exec .btnRead { t with now := now, raw := raw } = .next t' →
      exec .btnWaspressed t' = .next u' → u.rsp = 1 → u'.rsp = 0)

/-! ### The indicator -/

/-- R86, R87; that the counters stay as they are is the spec's decision D15. -/
def Obligations.SteadyRequestsForceTheIndicator : Prop :=
  (∀ w : OpWord, (opcodeOf w = 0x30 → decode w = .instr .flOn) ∧
    (opcodeOf w = 0x31 → decode w = .instr .flOff)) ∧
  ∀ s : State,
    exec .flOn s = .next
      { s with fl := { s.fl with mode := .alwaysOn, led := true }, rsp := 0, events := [] } ∧
    exec .flOff s = .next
      { s with fl := { s.fl with mode := .alwaysOff, led := false }, rsp := 0, events := [] }

/-- R88, R89, on the legal operands of R85: fields a mode does not use may be 0. -/
def Obligations.ConfigureStartsThePattern : Prop :=
  (∀ w : OpWord,
    (opcodeOf w = 0x32 → decode w = .instr (.flSingle ((argOf w).extractLsb' 24 8)
      ((argOf w).extractLsb' 16 8) ((argOf w).extractLsb' 8 8) ((argOf w).extractLsb' 0 8))) ∧
    (opcodeOf w = 0x33 → decode w = .instr (.flCont ((argOf w).extractLsb' 24 8)
      ((argOf w).extractLsb' 16 8) ((argOf w).extractLsb' 8 8) ((argOf w).extractLsb' 0 8)))) ∧
  ∀ (on off count pause : Byte) (s : State),
    1 ≤ on.toNat → 1 ≤ count.toNat → (1 < count.toNat → 1 ≤ off.toNat) →
    exec (.flSingle on off count pause) s = .next
      { s with
          fl := ⟨on, off, count, pause, .singleBurst, on, 0, true, s.now⟩, rsp := 0, events := [] } ∧
    (1 ≤ pause.toNat → exec (.flCont on off count pause) s = .next
      { s with
          fl := ⟨on, off, count, pause, .continuousBursts, on, 0, true, s.now⟩
          rsp := 0, events := [] })

/-- R90, clause by clause, with the spec's decisions D13 and D14. -/
def Obligations.UpdateAdvancesOneTimeStep : Prop :=
  (∀ w : OpWord, opcodeOf w = 0x34 → decode w = .instr .flUpdate) ∧
  ∀ s : State,
    let f := s.fl
    let rest := f.ticksRemaining - 1
    let done := f.burstsSoFar + 1
    let timed := f.mode = .singleBurst ∨ f.mode = .continuousBursts
    let due := s.cfg.tickMs ≤ clkSub s.cfg s.now f.lastTick
    let answers := fun g : Flash =>
      exec .flUpdate s = .next { s with fl := g, rsp := g.led.toNat, events := [] }
    (¬ timed → answers f) ∧
    (timed → ¬ due → answers f) ∧
    (timed → due → rest ≠ 0 → answers { f with lastTick := s.now, ticksRemaining := rest }) ∧
    (timed → due → rest = 0 → f.led = true → done.toNat < f.burstCount.toNat →
      answers { f with lastTick := s.now, led := false, burstsSoFar := done,
                       ticksRemaining := f.offTicks }) ∧
    (f.mode = .singleBurst → due → rest = 0 → f.led = true → f.burstCount.toNat ≤ done.toNat →
      answers { f with lastTick := s.now, led := false, burstsSoFar := done, ticksRemaining := 0,
                       mode := .alwaysOff }) ∧
    (f.mode = .continuousBursts → due → rest = 0 → f.led = true →
      f.burstCount.toNat ≤ done.toNat →
      answers { f with lastTick := s.now, led := false, burstsSoFar := done,
                       ticksRemaining := f.pauseTicks }) ∧
    (timed → due → rest = 0 → f.led = false →
      answers { f with
                  lastTick := s.now, led := true, ticksRemaining := f.onTicks
                  burstsSoFar := if f.burstCount.toNat ≤ f.burstsSoFar.toNat then 0
                                 else f.burstsSoFar })

/-- R91, `SingleBurst`: `k` updates, one tick period apart, after the configuration, the indicator
shows the burst's level at time step `k`, and the engine is `AlwaysOff` exactly from time step
`n*on + (n-1)*off` on, for any number of further updates. -/
def Obligations.SingleBurstWaveform : Prop :=
  ∀ (s : State) (on off n pause : Byte) (t0 k : Nat) (raw : Bool),
    s.cfg.tickMs < 2 ^ s.cfg.clkBits →
    1 ≤ on.toNat → 1 ≤ n.toNat → (1 < n.toNat → 1 ≤ off.toNat) →
    ∃ t, runRequests
        (requestOf (.flSingle on off n pause) t0 raw :: updatesFrom s.cfg t0 raw k) s = .next t ∧
      t.fl.led = burstLevel on.toNat off.toNat n.toNat k ∧
      (t.fl.mode = .alwaysOff ↔ n.toNat * on.toNat + (n.toNat - 1) * off.toNat ≤ k) ∧
      (t.fl.mode = .singleBurst ↔ k < n.toNat * on.toNat + (n.toNat - 1) * off.toNat)

/-- R91, `ContinuousBursts`: the burst repeats with period `n*on + (n-1)*off + pause`, for ever. -/
def Obligations.ContinuousBurstsWaveform : Prop :=
  ∀ (s : State) (on off n pause : Byte) (t0 k : Nat) (raw : Bool),
    s.cfg.tickMs < 2 ^ s.cfg.clkBits →
    1 ≤ on.toNat → 1 ≤ n.toNat → (1 < n.toNat → 1 ≤ off.toNat) → 1 ≤ pause.toNat →
    ∃ t, runRequests
        (requestOf (.flCont on off n pause) t0 raw :: updatesFrom s.cfg t0 raw k) s = .next t ∧
      t.fl.mode = .continuousBursts ∧
      t.fl.led = burstLevel on.toNat off.toNat n.toNat
        (k % (n.toNat * on.toNat + (n.toNat - 1) * off.toNat + pause.toNat))

/-! ### The store -/

/-- R97, R98: `CVS.INIT` builds the factory image and touches no persisted byte; the bytes the
document gives stand at their indices, and the others depend on the two tags alone. -/
def Obligations.InitBuildsTheFactoryImage : Prop :=
  (∀ w : OpWord, opcodeOf w = 0x40 → decode w = .instr
    (.cvsInit ((argOf w).extractLsb' 8 8) ((argOf w).extractLsb' 0 8))) ∧
  ∀ (decoderType version : Byte) (s : State), s.cfg.Legal →
    ∃ t, exec (.cvsInit decoderType version) s = .next t ∧
      t = { s with defaults := t.defaults, inited := true, rsp := 0, events := [] } ∧
      t.defaults.length = s.cfg.n + 1 ∧
      defaultAt t 0 = s.cfg.magic ∧
      defaultAt t s.cfg.idxAddrLow = s.cfg.defAddrLow ∧
      defaultAt t s.cfg.idxAddrHigh = s.cfg.defAddrHigh ∧
      defaultAt t s.cfg.idxVersion = version ∧
      ∀ s' t' : State, s'.cfg = s.cfg → exec (.cvsInit decoderType version) s' = .next t' →
        t'.defaults = t.defaults

/-- R101: every index of the table takes its default, nothing else changes, and doing it again
changes nothing more. -/
def Obligations.SetDefaultsCopiesTheImage : Prop :=
  (∀ w : OpWord, opcodeOf w = 0x42 → decode w = .instr .cvsSetdef) ∧
  ∀ s : State, s.inited = true → Memory.wf s.table = true →
    ∃ t, exec .cvsSetdef s = .next t ∧
      (∀ k, memRead t k = if k ≤ s.cfg.n then defaultAt s k else memRead s k) ∧
      t = { s with table := t.table, rsp := 0, events := [] } ∧
      exec .cvsSetdef t = .next t

/-- R100, R104: the marker compared with the magic value, and the address-high byte's sentinel bit,
that is, the byte at 128 or above. After a factory reset of a consistent, initialised store the
marker query answers 0. -/
def Obligations.MarkerAndSentinelQueries : Prop :=
  (∀ w : OpWord, (opcodeOf w = 0x41 → decode w = .instr .cvsNotinit) ∧
    (opcodeOf w = 0x45 → decode w = .instr .cvsAddrnotset)) ∧
  (∀ s : State,
    exec .cvsNotinit s = .next
      { s with rsp := if memRead s 0 = s.cfg.magic then 0 else 1, events := [] } ∧
    exec .cvsAddrnotset s = .next
      { s with
          rsp := if 128 ≤ (memRead s s.cfg.idxAddrHigh).toNat then 1 else 0, events := [] }) ∧
  ∀ s : State, StoreOk s → s.inited = true →
    ∃ t u, exec .cvsSetdef s = .next t ∧ exec .cvsNotinit t = .next u ∧ u.rsp = 0

/-- R102, R103: a read returns the byte, a write stores it, whichever index it is, and leaves every
other index alone; an index above `N` is refused. -/
def Obligations.StoreReadAndWriteReachOneIndex : Prop :=
  (∀ w : OpWord, (opcodeOf w = 0x43 → decode w = .instr (.cvsRead ((argOf w).extractLsb' 8 16))) ∧
    (opcodeOf w = 0x44 → decode w = .instr
      (.cvsWrite ((argOf w).extractLsb' 8 16) ((argOf w).extractLsb' 0 8)))) ∧
  ∀ (index : BitVec 16) (value : Byte) (s : State),
    (index.toNat ≤ s.cfg.n → 14 ≤ s.cfg.addrBits → exec (.cvsRead index) s = .next
      { s with rsp := (memRead s index.toNat).toNat, events := [] }) ∧
    (index.toNat ≤ s.cfg.n → Memory.wf s.table = true →
      ∃ t, exec (.cvsWrite index value) s = .next t ∧
        (∀ k, memRead t k = if k = index.toNat then value else memRead s k) ∧
        t = { s with table := t.table, rsp := 0, events := [] }) ∧
    (s.cfg.n < index.toNat →
      exec (.cvsRead index) s = .refused .indexOutOfRange ∧
      exec (.cvsWrite index value) s = .refused .indexOutOfRange)

/-- R105 to R108, in the arithmetic of numbers, with the spec's decisions D18 and D19
(the long-address layout is from general knowledge, log 17); that the fallback is cut to `ADDR_BITS`
bits is log 19. -/
def Obligations.StoredAddressFollowsTheDerivation : Prop :=
  (∀ w : OpWord, opcodeOf w = 0x46 → decode w = .instr .cvsStoredaddr) ∧
  ∀ s : State, 14 ≤ s.cfg.addrBits →
    let hi := (memRead s s.cfg.idxAddrHigh).toNat
    let lo := (memRead s s.cfg.idxAddrLow).toNat
    let cfgByte := memRead s s.cfg.idxConfig
    let stored := hi % 8 * 64 + lo % 64
    let long := (memRead s s.cfg.idxLongHigh).toNat % 64 * 256 +
      (memRead s s.cfg.idxLongLow).toNat
    let loco := if cfgByte.getLsbD s.cfg.bitLong.val = true then long else lo % 128
    exec .cvsStoredaddr s = .next
      { s with
          rsp :=
            if 128 ≤ hi then 2 ^ s.cfg.addrBits - 1
            else if cfgByte.getLsbD s.cfg.bitAcc.val = true then
              if cfgByte.getLsbD s.cfg.bitOut.val = true then hi % 8 * 256 + lo
              else if stored = 0 then 2 ^ s.cfg.addrBits - 1 else stored - 1
            else if loco = 0 then s.cfg.fallbackAddr % 2 ^ s.cfg.addrBits else loco
          events := [] }

/-- R110: the round trips, on the whole 11-bit range. -/
def Obligations.AddressRoundTrip : Prop :=
  ∀ (p : Params) (a : BitVec 11), 14 ≤ p.addrBits →
    accOutput p (encodeAddress a true).2 (encodeAddress a true).1 = a.toNat ∧
    (a.toNat ≤ 510 →
      accDecoder p (encodeAddress a false).2 (encodeAddress a false).1 = a.toNat) ∧
    (a.toNat = 511 → encodeAddress a false = (0x00, 0x00)) ∧
    ((a.toNat + 1) % 512 = 0 →
      accDecoder p (encodeAddress a false).2 (encodeAddress a false).1 = p.unassigned) ∧
    ((a.toNat + 1) % 512 ≠ 0 →
      accDecoder p (encodeAddress a false).2 (encodeAddress a false).1 =
        (a.toNat + 1) % 512 - 1)

/-- R109, R110 and R135 through the machine: the address an `ACC` teaches is the address
`CVS.STOREDADDR` then reports, in either addressing mode, wherever it can be stored. -/
def Obligations.CapturedAddressIsTheStoredAddress : Prop :=
  ∀ (s : State) (a : BitVec 11) (isMine isBroadcast : Bool),
    s.cfg.Legal → Memory.wf s.table = true → booted s = true → s.sess = .waiting →
    (isBroadcast = true ∨ isMine = true) →
    (memRead s s.cfg.idxConfig).getLsbD s.cfg.bitAcc.val = true →
    ((memRead s s.cfg.idxConfig).getLsbD s.cfg.bitOut.val = true ∨ a.toNat ≤ 510) →
    ∃ t u v, exec (.acc a isMine isBroadcast) s = .next t ∧
      exec .cvsStoredaddr t = .next u ∧ u.rsp = a.toNat ∧
      exec .cvsAddrnotset t = .next v ∧ v.rsp = 0

/-- R61, R168 and R111: from the reset state over any table the boot sequence completes, booted, idle
and dark, with the image of its tags built and the marker set; an initialised table is kept, any other
becomes the factory image, whose address is not assigned. `BOOT` without operands passes
`DECODER_TYPE` and `VERSION` (R6). -/
def Obligations.BootInitialisesAnyStore : Prop :=
  ∀ (p : Params) (m : Memory) (decoderType version : Byte) (now : Nat) (raw : Bool)
    (port : List Stimulus), p.Legal → Memory.wf m = true →
    let s := { State.resetWith p m with now := now, raw := raw, port := port }
    boot s = bootWith p.decoderType p.version s ∧
    ∃ t, bootWith decoderType version s = .next t ∧
      t.defaults = defaultImage p decoderType version ∧ booted t = true ∧ t.sess = .idle ∧ t.fl = Flash.reset ∧ t.events = [] ∧
      memRead t 0 = p.magic ∧
      (Memory.read m 0 = p.magic → t.table = m) ∧
      (Memory.read m 0 ≠ p.magic →
        memRead t p.idxAddrLow = p.defAddrLow ∧ memRead t p.idxAddrHigh = p.defAddrHigh ∧
        (p.Normative → ∃ u v, exec .cvsAddrnotset t = .next u ∧ u.rsp = 1 ∧
          exec .cvsStoredaddr t = .next v ∧ v.rsp = p.unassigned))

/-- R12, R138 (a): a byte of the table changes only by `CVS.SETDEF`, by a write or a bit write that
names its index, by the factory reset of a `CV.WR` to the vendor-ID CV, by a capturing `ACC` (the two
address CVs), or by the long hold in `ARMED`. -/
def Obligations.TableIsWrittenOnlyByItsWriters : Prop :=
  ∀ (i : Instr) (s t : State) (k : Nat), exec i s = .next t → memRead t k ≠ memRead s k →
    i = .cvsSetdef ∨
    (∃ x v, i = .cvsWrite x v ∧ k = x.toNat) ∨
    (∃ x v, (i = .cvWrSm x v ∨ i = .cvWrPom x v) ∧
      (k = x.toNat ∨ (x.toNat = s.cfg.idxVid ∧ v = s.cfg.resetSentinel))) ∨
    (∃ x q d, i = .cvBitwSm x q d ∧ k = x.toNat) ∨
    (∃ a m b, i = .acc a m b ∧ s.sess = .waiting ∧
      (k = s.cfg.idxAddrLow ∨ k = s.cfg.idxAddrHigh)) ∨
    (i = .sysTick ∧ s.sess = .armed ∧ t.events = [.reboot])

/-! ### CV commands -/

/-- R114: a `CV` command outside `CV_MIN`..`N` is dropped. -/
def Obligations.OutOfRangeCommandsAreDropped : Prop :=
  ∀ (n : BitVec 16) (s : State), booted s = true → (n.toNat < s.cfg.cvMin ∨ s.cfg.n < n.toNat) →
    (∀ v, ∀ i ∈ [Instr.cvVfySm n v, .cvVfyPom n v, .cvWrSm n v, .cvWrPom n v],
      exec i s = .next { s with rsp := 0, events := [] }) ∧
    (∀ q d k, ∀ i ∈ [Instr.cvBitvSm n q d, .cvBitwSm n q d, .cvBitPom n q d k],
      exec i s = .next { s with rsp := 0, events := [] })

/-- R115, R120, with the operand places of R54 (the spec's decision D22, from general knowledge,
log 17): a verify changes nothing, and acknowledges on a match, on every index of the range
alike; outside the range it is dropped. -/
def Obligations.VerifyAcknowledgesOnAMatch : Prop :=
  (∀ w : OpWord,
    ((opcodeOf w).toNat / 2 = 0b0101010 → decode w = .instr
      (.cvVfySm ((argOf w).extractLsb' 16 16) ((argOf w).extractLsb' 0 8))) ∧
    (opcodeOf w = 0b01011000 → decode w = .instr (.cvBitvSm ((argOf w).extractLsb' 16 16)
      ((argOf w).extractLsb' 0 3) ((argOf w).getLsbD 3)))) ∧
  ∀ (n : BitVec 16) (v : Byte) (q : BitVec 3) (d : Bool) (s : State), booted s = true →
    let inRange := s.cfg.cvMin ≤ n.toNat ∧ n.toNat ≤ s.cfg.n
    exec (.cvVfySm n v) s = .next
      { s with rsp := 0, events := if inRange ∧ memRead s n.toNat = v then [.ack] else [] } ∧
    exec (.cvBitvSm n q d) s = .next
      { s with
          rsp := 0
          events := if inRange ∧ (memRead s n.toNat).getLsbD q.toNat = d then [.ack] else [] }

/-- R116, R122, R123, with the operand places of R54 (D22, log 17): verify and bit manipulation in Programming-on-Main do nothing, and `CV.RSVD`
is dropped. (That it is dropped before the boot sequence too is in `ReservedWordsAreDropped`.) -/
def Obligations.NoOpCommandsChangeNothing : Prop :=
  (∀ w : OpWord,
    ((opcodeOf w).toNat / 2 = 0b0101011 → decode w = .instr
      (.cvVfyPom ((argOf w).extractLsb' 16 16) ((argOf w).extractLsb' 0 8))) ∧
    ((opcodeOf w).toNat / 2 = 0b0101101 → decode w = .instr
      (.cvBitPom ((argOf w).extractLsb' 16 16) ((argOf w).extractLsb' 0 3) ((argOf w).getLsbD 3)
        ((opcodeOf w).getLsbD 0))) ∧
    ((opcodeOf w).toNat / 4 = 0b010100 → decode w = .instr
      (.cvRsvd ((argOf w).extractLsb' 16 16) ((argOf w).extractLsb' 0 8)))) ∧
  ∀ (n : BitVec 16) (v : Byte) (q : BitVec 3) (d k : Bool) (s : State), booted s = true →
    ∀ i ∈ [Instr.cvVfyPom n v, .cvBitPom n q d k, .cvRsvd n v],
      exec i s = .next { s with rsp := 0, events := [] }

/-- R117 to R119, a plain index: the byte is stored, and Service Mode acknowledges. -/
def Obligations.PlainWriteStoresAndAcknowledges : Prop :=
  ∀ (n : BitVec 16) (v : Byte) (s : State), booted s = true → Memory.wf s.table = true →
    s.cfg.cvMin ≤ n.toNat → n.toNat ≤ s.cfg.n →
    n.toNat ∉ [s.cfg.idxVersion, s.cfg.idxVid, s.cfg.idxRestart, s.cfg.idxSearch] →
    ∃ t u, exec (.cvWrSm n v) s = .next t ∧ exec (.cvWrPom n v) s = .next u ∧
      (∀ k, memRead t k = if k = n.toNat then v else memRead s k) ∧
      t = { s with table := t.table, rsp := 0, events := [.ack] } ∧
      u = { t with events := [] }

/-- R119, the special indices that do not write: version, vendor-ID with another value, restart,
search, in either mode and without an `Ack`. -/
def Obligations.SpecialWritesFollowTheirOwnRules : Prop :=
  ∀ (n : BitVec 16) (v : Byte) (i : Instr) (s : State), booted s = true → s.cfg.Legal →
    (i = .cvWrSm n v ∨ i = .cvWrPom n v) →
    (n.toNat = s.cfg.idxVersion → exec i s = .next { s with rsp := 0, events := [] }) ∧
    (n.toNat = s.cfg.idxVid → v ≠ s.cfg.resetSentinel →
      exec i s = .next { s with rsp := 0, events := [] }) ∧
    (n.toNat = s.cfg.idxRestart → v = 0 → exec i s = .next { s with rsp := 0, events := [] }) ∧
    (n.toNat = s.cfg.idxRestart → v ≠ 0 → exec i s = .next
      { State.resetWith s.cfg s.table with
          now := s.now, raw := s.raw, events := [.reboot], port := s.port }) ∧
    (n.toNat = s.cfg.idxSearch → v ≠ 0 → exec i s = .next
      { s with
          fl := ⟨s.cfg.patSearch.on, s.cfg.patSearch.off, s.cfg.patSearch.count,
                  s.cfg.patSearch.pause, .continuousBursts, s.cfg.patSearch.on, 0, true, s.now⟩
          flashFlag := true, rsp := 0, events := [] }) ∧
    (n.toNat = s.cfg.idxSearch → v = 0 → exec i s = .next
      { s with
          fl := { s.fl with mode := .alwaysOff, led := false }
          flashFlag := false, rsp := 0, events := [] })

/-- R119, R124, R125: the vendor-ID CV written with the sentinel: the whole table takes its defaults,
then `Ack` (Service Mode only), then `Reboot` into the reset state. -/
def Obligations.FactoryResetByVendorId : Prop :=
  ∀ (n : BitVec 16) (v : Byte) (s : State), booted s = true → s.cfg.Legal →
    Memory.wf s.table = true → n.toNat = s.cfg.idxVid → v = s.cfg.resetSentinel →
    ∃ t u, exec (.cvWrSm n v) s = .next t ∧ exec (.cvWrPom n v) s = .next u ∧
      (∀ k, memRead t k = if k ≤ s.cfg.n then defaultAt s k else memRead s k) ∧
      t = { State.resetWith s.cfg t.table with
              now := s.now, raw := s.raw, events := [.ack, .reboot], port := s.port } ∧
      u = { t with events := [.reboot] }

/-- R121, inside the range of R114, with the operand places of R54 (D22, log 17): one bit of one byte,
on every index alike (D24), and always an `Ack`. -/
def Obligations.BitWriteChangesOneBit : Prop :=
  (∀ w : OpWord, opcodeOf w = 0x59 → decode w = .instr (.cvBitwSm ((argOf w).extractLsb' 16 16)
    ((argOf w).extractLsb' 0 3) ((argOf w).getLsbD 3))) ∧
  ∀ (n : BitVec 16) (q : BitVec 3) (d : Bool) (s : State), booted s = true →
    Memory.wf s.table = true → s.cfg.cvMin ≤ n.toNat → n.toNat ≤ s.cfg.n →
    ∃ t, exec (.cvBitwSm n q d) s = .next t ∧
      (∀ k, k ≠ n.toNat → memRead t k = memRead s k) ∧
      (∀ j, j < 8 → (memRead t n.toNat).getLsbD j =
        if j = q.toNat then d else (memRead s n.toNat).getLsbD j) ∧
      t = { s with table := t.table, rsp := 0, events := [.ack] }

/-- R124, R126: an operation ends with one of four event lists; an `Ack` comes from a Service-Mode
command only, and a `Reboot` from a `CV.WR` or a tick only. -/
def Obligations.EventsAreAckThenReboot : Prop :=
  ∀ (i : Instr) (s t : State), exec i s = .next t →
    t.events ∈ [[], [Event.ack], [Event.reboot], [Event.ack, Event.reboot]] ∧
    (Event.ack ∈ t.events → ∃ n : BitVec 16,
      (∃ v, i = .cvVfySm n v ∨ i = .cvWrSm n v) ∨
      (∃ q d, i = .cvBitvSm n q d ∨ i = .cvBitwSm n q d)) ∧
    (Event.reboot ∈ t.events → i = .sysTick ∨ ∃ n v, i = .cvWrSm n v ∨ i = .cvWrPom n v)

/-- R153, R166: after any operation that emitted `Reboot` every volatile element is at its reset
value and the table is what the operation left; the clock, the line and the port are the
environment's. -/
def Obligations.RebootLeavesTheResetState : Prop :=
  ∀ (i : Instr) (s t : State), exec i s = .next t → Event.reboot ∈ t.events →
    t = { State.resetWith s.cfg t.table with
            now := s.now, raw := s.raw, events := t.events, port := s.port }
end

