-- ==== Sys2Proof/Laws/Encoding.lean ====
section
/-!
SUPPORT. Taking an operation word apart gives back the parts it was assembled from, and a field read
from an `arg` gives back the value placed there: decoding an encoded instruction is then a lookup by
a known opcode.
-/

namespace Sys2Proof

theorem getLsbD_assemble (op : Opcode) (arg : Arg) (i : Nat) :
    (assemble op arg).getLsbD i = if i < 32 then arg.getLsbD i else op.getLsbD (i - 32) := by
  simpa [assemble] using BitVec.getLsbD_append (x := op) (y := arg) (i := i)

@[simp] theorem opcodeOf_assemble (op : Opcode) (arg : Arg) : opcodeOf (assemble op arg) = op := by
  refine BitVec.eq_of_getLsbD_eq fun i hi => ?_
  simp [opcodeOf, getLsbD_assemble, hi]

@[simp] theorem argOf_assemble (op : Opcode) (arg : Arg) : argOf (assemble op arg) = arg := by
  refine BitVec.eq_of_getLsbD_eq fun i hi => ?_
  simp [argOf, getLsbD_assemble, hi]

theorem assemble_parts (w : OpWord) : assemble (opcodeOf w) (argOf w) = w := by
  refine BitVec.eq_of_getLsbD_eq fun i hi => ?_
  rw [getLsbD_assemble]
  by_cases h : i < 32
  · simp [argOf, h]
  · simp [opcodeOf, h, show 32 + (i - 32) = i by omega, show i - 32 < 8 by omega]

@[simp] theorem decode_assemble (op : Opcode) (arg : Arg) :
    decode (assemble op arg) = decodeParts op arg := by
  simp [decode]

/-- The rows exclude each other: no opcode is selected by two of them (R62). -/
theorem opcodeRows_disjoint :
    opcodeRows.Pairwise (fun r r' => (r.mask &&& r'.mask &&& (r.pattern ^^^ r'.pattern)) ≠ 0) := by
  decide

/-! ### Bits of a placed field -/

theorem getLsbD_place (lo : Nat) {len : Nat} (v : BitVec len) (i : Nat) :
    (place lo v).getLsbD i = (decide (i < 32) && !decide (i < lo) && v.getLsbD (i - lo)) := by
  simp only [place, BitVec.getLsbD_shiftLeft, BitVec.getLsbD_setWidth]
  by_cases h1 : i < 32
  · simp [h1, show i - lo < 32 by omega]
  · simp [h1]

theorem getLsbD_placeBit (lo : Nat) (b : Bool) (i : Nat) :
    (placeBit lo b).getLsbD i = (decide (i < 32) && decide (i = lo) && b) := by
  rw [placeBit, getLsbD_place, BitVec.getLsbD_ofBool]
  by_cases h : i = lo
  · simp [h]
  · by_cases h2 : i < lo
    · simp [h, h2]
    · simp [h, h2, show i - lo ≠ 0 by omega]

theorem getLsbD_argField (a : Arg) (lo len i : Nat) :
    (argField a lo len).getLsbD i = (decide (i < len) && a.getLsbD (lo + i)) := by
  simp [argField]

/-- A field is the value whose bits it shows. -/
theorem argField_eq_of_bits {a : Arg} {lo len : Nat} {v : BitVec len}
    (h : ∀ i, i < len → a.getLsbD (lo + i) = v.getLsbD i) : argField a lo len = v := by
  refine BitVec.eq_of_getLsbD_eq fun i hi => ?_
  rw [getLsbD_argField]
  simp [hi, h i hi]

/-! ### The formats read back -/

theorem attachArg_fields (pin : Byte) (d : BitVec 16) (pullup invert : Bool) :
    argField (attachArg pin d pullup invert) 24 8 = pin ∧
    argField (attachArg pin d pullup invert) 8 16 = d ∧
    argBit (attachArg pin d pullup invert) 1 = pullup ∧
    argBit (attachArg pin d pullup invert) 0 = invert := by
  refine ⟨argField_eq_of_bits fun i hi => ?_, argField_eq_of_bits fun i hi => ?_, ?_, ?_⟩
  · simp only [attachArg, BitVec.getLsbD_or, getLsbD_place, getLsbD_placeBit]
    simp (disch := omega) [BitVec.getLsbD_of_ge, show 24 + i < 32 by omega,
      show ¬ (24 + i < 8) by omega, show 24 + i ≠ 1 by omega]
  · simp only [attachArg, BitVec.getLsbD_or, getLsbD_place, getLsbD_placeBit]
    simp (disch := omega) [show 8 + i < 32 by omega, show 8 + i < 24 by omega,
      show 8 + i ≠ 1 by omega]
  · simp only [argBit, attachArg, BitVec.getLsbD_or, getLsbD_place, getLsbD_placeBit]
    simp (disch := omega)
  · simp only [argBit, attachArg, BitVec.getLsbD_or, getLsbD_place, getLsbD_placeBit]
    simp (disch := omega)

theorem patternArg_fields (on off count pause : Byte) :
    argField (patternArg on off count pause) 24 8 = on ∧
    argField (patternArg on off count pause) 16 8 = off ∧
    argField (patternArg on off count pause) 8 8 = count ∧
    argField (patternArg on off count pause) 0 8 = pause := by
  refine ⟨argField_eq_of_bits fun i hi => ?_, argField_eq_of_bits fun i hi => ?_,
    argField_eq_of_bits fun i hi => ?_, argField_eq_of_bits fun i hi => ?_⟩
  · simp only [patternArg, BitVec.getLsbD_or, getLsbD_place]
    simp (disch := omega) [BitVec.getLsbD_of_ge, show 24 + i < 32 by omega,
      show ¬ (24 + i < 16) by omega, show ¬ (24 + i < 8) by omega]
  · simp only [patternArg, BitVec.getLsbD_or, getLsbD_place]
    simp (disch := omega) [BitVec.getLsbD_of_ge, show 16 + i < 32 by omega,
      show 16 + i < 24 by omega, show ¬ (16 + i < 8) by omega]
  · simp only [patternArg, BitVec.getLsbD_or, getLsbD_place]
    simp (disch := omega) [BitVec.getLsbD_of_ge, show 8 + i < 32 by omega,
      show 8 + i < 24 by omega, show 8 + i < 16 by omega]
  · simp only [patternArg, BitVec.getLsbD_or, getLsbD_place]
    simp (disch := omega) [show i < 32 by omega, show i < 24 by omega, show i < 16 by omega,
      show i < 8 by omega]

theorem initArg_fields (decoderType version : Byte) :
    argField (place 8 decoderType ||| place 0 version) 8 8 = decoderType ∧
    argField (place 8 decoderType ||| place 0 version) 0 8 = version := by
  refine ⟨argField_eq_of_bits fun i hi => ?_, argField_eq_of_bits fun i hi => ?_⟩
  · simp only [BitVec.getLsbD_or, getLsbD_place]
    simp (disch := omega) [BitVec.getLsbD_of_ge, show 8 + i < 32 by omega]
  · simp only [BitVec.getLsbD_or, getLsbD_place]
    simp (disch := omega) [show i < 32 by omega, show i < 8 by omega]

theorem storeArg_fields (index : BitVec 16) (value : Byte) :
    indexField (storeArg index value) = index ∧ valueField (storeArg index value) = value := by
  refine ⟨argField_eq_of_bits fun i hi => ?_, argField_eq_of_bits fun i hi => ?_⟩
  · simp only [storeArg, BitVec.getLsbD_or, getLsbD_place]
    simp (disch := omega) [BitVec.getLsbD_of_ge, show 8 + i < 32 by omega]
  · simp only [storeArg, BitVec.getLsbD_or, getLsbD_place]
    simp (disch := omega) [show i < 32 by omega, show i < 8 by omega]

theorem cvArg_fields (cvNumber : BitVec 16) (value : Byte) :
    cvNumberField (cvArg cvNumber value) = cvNumber ∧
    valueField (cvArg cvNumber value) = value := by
  refine ⟨argField_eq_of_bits fun i hi => ?_, argField_eq_of_bits fun i hi => ?_⟩
  · simp only [cvArg, BitVec.getLsbD_or, getLsbD_place]
    simp (disch := omega) [BitVec.getLsbD_of_ge, show 16 + i < 32 by omega]
  · simp only [cvArg, BitVec.getLsbD_or, getLsbD_place]
    simp (disch := omega) [show i < 32 by omega, show i < 16 by omega]

theorem bitArg_fields (cvNumber : BitVec 16) (bitPos : BitVec 3) (bitVal k : Bool) :
    cvNumberField (bitArg cvNumber bitPos bitVal k) = cvNumber ∧
    bitPosField (bitArg cvNumber bitPos bitVal k) = bitPos ∧
    bitValField (bitArg cvNumber bitPos bitVal k) = bitVal := by
  refine ⟨argField_eq_of_bits fun i hi => ?_, argField_eq_of_bits fun i hi => ?_, ?_⟩
  · simp only [bitArg, BitVec.getLsbD_or, getLsbD_place, getLsbD_placeBit]
    simp (disch := omega) [BitVec.getLsbD_of_ge, show 16 + i < 32 by omega,
      show ¬ (16 + i < 5) by omega, show 16 + i ≠ 4 by omega, show 16 + i ≠ 3 by omega]
  · simp only [bitArg, BitVec.getLsbD_or, getLsbD_place, getLsbD_placeBit]
    simp (disch := omega) [show i < 32 by omega, show i < 16 by omega, show i < 5 by omega,
      show i ≠ 4 by omega, show i ≠ 3 by omega]
  · simp only [bitValField, argBit, bitArg, BitVec.getLsbD_or, getLsbD_place, getLsbD_placeBit]
    simp (disch := omega) [BitVec.getLsbD_of_ge]

theorem addressArg_field (address : BitVec 11) : addressField (place 0 address) = address :=
  argField_eq_of_bits fun i hi => by
    rw [getLsbD_place]
    simp (disch := omega) [show i < 32 by omega]

end Sys2Proof
end

