-- ==== Sys2Proof/Laws/State.lean ====
section
/-!
SUPPORT. One lemma per field of `State` per named update, each true by unfolding the update, and the
same for the named updates of a timer, the button and the indicator: later proofs unfold none of
these updates.
-/

namespace Sys2Proof.Machine

/-! ### Answers -/

@[simp] theorem opStart_table (s : State) : (opStart s).table = s.table := rfl
@[simp] theorem opStart_defaults (s : State) : (opStart s).defaults = s.defaults := rfl
@[simp] theorem opStart_inited (s : State) : (opStart s).inited = s.inited := rfl
@[simp] theorem opStart_tu (s : State) : (opStart s).tu = s.tu := rfl
@[simp] theorem opStart_ts (s : State) : (opStart s).ts = s.ts := rfl
@[simp] theorem opStart_btn (s : State) : (opStart s).btn = s.btn := rfl
@[simp] theorem opStart_fl (s : State) : (opStart s).fl = s.fl := rfl
@[simp] theorem opStart_sess (s : State) : (opStart s).sess = s.sess := rfl
@[simp] theorem opStart_flashFlag (s : State) : (opStart s).flashFlag = s.flashFlag := rfl
@[simp] theorem opStart_cfg (s : State) : (opStart s).cfg = s.cfg := rfl
@[simp] theorem opStart_now (s : State) : (opStart s).now = s.now := rfl
@[simp] theorem opStart_raw (s : State) : (opStart s).raw = s.raw := rfl
@[simp] theorem opStart_rsp (s : State) : (opStart s).rsp = 0 := rfl
@[simp] theorem opStart_events (s : State) : (opStart s).events = [] := rfl
@[simp] theorem opStart_port (s : State) : (opStart s).port = s.port := rfl

@[simp] theorem dropped_table (s : State) : (dropped s).table = s.table := rfl
@[simp] theorem dropped_defaults (s : State) : (dropped s).defaults = s.defaults := rfl
@[simp] theorem dropped_inited (s : State) : (dropped s).inited = s.inited := rfl
@[simp] theorem dropped_tu (s : State) : (dropped s).tu = s.tu := rfl
@[simp] theorem dropped_ts (s : State) : (dropped s).ts = s.ts := rfl
@[simp] theorem dropped_btn (s : State) : (dropped s).btn = s.btn := rfl
@[simp] theorem dropped_fl (s : State) : (dropped s).fl = s.fl := rfl
@[simp] theorem dropped_sess (s : State) : (dropped s).sess = s.sess := rfl
@[simp] theorem dropped_flashFlag (s : State) : (dropped s).flashFlag = s.flashFlag := rfl
@[simp] theorem dropped_cfg (s : State) : (dropped s).cfg = s.cfg := rfl
@[simp] theorem dropped_now (s : State) : (dropped s).now = s.now := rfl
@[simp] theorem dropped_raw (s : State) : (dropped s).raw = s.raw := rfl
@[simp] theorem dropped_rsp (s : State) : (dropped s).rsp = 0 := rfl
@[simp] theorem dropped_events (s : State) : (dropped s).events = [] := rfl
@[simp] theorem dropped_port (s : State) : (dropped s).port = s.port := rfl

@[simp] theorem respond_table (s : State) (v : Nat) : (respond s v).table = s.table := rfl
@[simp] theorem respond_defaults (s : State) (v : Nat) : (respond s v).defaults = s.defaults := rfl
@[simp] theorem respond_inited (s : State) (v : Nat) : (respond s v).inited = s.inited := rfl
@[simp] theorem respond_tu (s : State) (v : Nat) : (respond s v).tu = s.tu := rfl
@[simp] theorem respond_ts (s : State) (v : Nat) : (respond s v).ts = s.ts := rfl
@[simp] theorem respond_btn (s : State) (v : Nat) : (respond s v).btn = s.btn := rfl
@[simp] theorem respond_fl (s : State) (v : Nat) : (respond s v).fl = s.fl := rfl
@[simp] theorem respond_sess (s : State) (v : Nat) : (respond s v).sess = s.sess := rfl
@[simp] theorem respond_flashFlag (s : State) (v : Nat) : (respond s v).flashFlag = s.flashFlag := rfl
@[simp] theorem respond_cfg (s : State) (v : Nat) : (respond s v).cfg = s.cfg := rfl
@[simp] theorem respond_now (s : State) (v : Nat) : (respond s v).now = s.now := rfl
@[simp] theorem respond_raw (s : State) (v : Nat) : (respond s v).raw = s.raw := rfl
@[simp] theorem respond_rsp (s : State) (v : Nat) : (respond s v).rsp = v := rfl
@[simp] theorem respond_events (s : State) (v : Nat) : (respond s v).events = s.events := rfl
@[simp] theorem respond_port (s : State) (v : Nat) : (respond s v).port = s.port := rfl

@[simp] theorem respondBool_table (s : State) (b : Bool) : (respondBool s b).table = s.table := rfl
@[simp] theorem respondBool_defaults (s : State) (b : Bool) : (respondBool s b).defaults = s.defaults := rfl
@[simp] theorem respondBool_inited (s : State) (b : Bool) : (respondBool s b).inited = s.inited := rfl
@[simp] theorem respondBool_tu (s : State) (b : Bool) : (respondBool s b).tu = s.tu := rfl
@[simp] theorem respondBool_ts (s : State) (b : Bool) : (respondBool s b).ts = s.ts := rfl
@[simp] theorem respondBool_btn (s : State) (b : Bool) : (respondBool s b).btn = s.btn := rfl
@[simp] theorem respondBool_fl (s : State) (b : Bool) : (respondBool s b).fl = s.fl := rfl
@[simp] theorem respondBool_sess (s : State) (b : Bool) : (respondBool s b).sess = s.sess := rfl
@[simp] theorem respondBool_flashFlag (s : State) (b : Bool) : (respondBool s b).flashFlag = s.flashFlag := rfl
@[simp] theorem respondBool_cfg (s : State) (b : Bool) : (respondBool s b).cfg = s.cfg := rfl
@[simp] theorem respondBool_now (s : State) (b : Bool) : (respondBool s b).now = s.now := rfl
@[simp] theorem respondBool_raw (s : State) (b : Bool) : (respondBool s b).raw = s.raw := rfl
@[simp] theorem respondBool_rsp (s : State) (b : Bool) : (respondBool s b).rsp = b.toNat := rfl
@[simp] theorem respondBool_events (s : State) (b : Bool) : (respondBool s b).events = s.events := rfl
@[simp] theorem respondBool_port (s : State) (b : Bool) : (respondBool s b).port = s.port := rfl

@[simp] theorem emit_table (s : State) (e : Event) : (emit s e).table = s.table := rfl
@[simp] theorem emit_defaults (s : State) (e : Event) : (emit s e).defaults = s.defaults := rfl
@[simp] theorem emit_inited (s : State) (e : Event) : (emit s e).inited = s.inited := rfl
@[simp] theorem emit_tu (s : State) (e : Event) : (emit s e).tu = s.tu := rfl
@[simp] theorem emit_ts (s : State) (e : Event) : (emit s e).ts = s.ts := rfl
@[simp] theorem emit_btn (s : State) (e : Event) : (emit s e).btn = s.btn := rfl
@[simp] theorem emit_fl (s : State) (e : Event) : (emit s e).fl = s.fl := rfl
@[simp] theorem emit_sess (s : State) (e : Event) : (emit s e).sess = s.sess := rfl
@[simp] theorem emit_flashFlag (s : State) (e : Event) : (emit s e).flashFlag = s.flashFlag := rfl
@[simp] theorem emit_cfg (s : State) (e : Event) : (emit s e).cfg = s.cfg := rfl
@[simp] theorem emit_now (s : State) (e : Event) : (emit s e).now = s.now := rfl
@[simp] theorem emit_raw (s : State) (e : Event) : (emit s e).raw = s.raw := rfl
@[simp] theorem emit_rsp (s : State) (e : Event) : (emit s e).rsp = s.rsp := rfl
@[simp] theorem emit_events (s : State) (e : Event) : (emit s e).events = s.events ++ [e] := rfl
@[simp] theorem emit_port (s : State) (e : Event) : (emit s e).port = s.port := rfl

@[simp] theorem ackIn_serviceMode (s : State) : ackIn .serviceMode s = emit s .ack := rfl
@[simp] theorem ackIn_programmingOnMain (s : State) : ackIn .programmingOnMain s = s := rfl

@[simp] theorem ackIn_table (mode : CvMode) (s : State) : (ackIn mode s).table = s.table := by cases mode <;> rfl
@[simp] theorem ackIn_defaults (mode : CvMode) (s : State) : (ackIn mode s).defaults = s.defaults := by cases mode <;> rfl
@[simp] theorem ackIn_inited (mode : CvMode) (s : State) : (ackIn mode s).inited = s.inited := by cases mode <;> rfl
@[simp] theorem ackIn_tu (mode : CvMode) (s : State) : (ackIn mode s).tu = s.tu := by cases mode <;> rfl
@[simp] theorem ackIn_ts (mode : CvMode) (s : State) : (ackIn mode s).ts = s.ts := by cases mode <;> rfl
@[simp] theorem ackIn_btn (mode : CvMode) (s : State) : (ackIn mode s).btn = s.btn := by cases mode <;> rfl
@[simp] theorem ackIn_fl (mode : CvMode) (s : State) : (ackIn mode s).fl = s.fl := by cases mode <;> rfl
@[simp] theorem ackIn_sess (mode : CvMode) (s : State) : (ackIn mode s).sess = s.sess := by cases mode <;> rfl
@[simp] theorem ackIn_flashFlag (mode : CvMode) (s : State) : (ackIn mode s).flashFlag = s.flashFlag := by cases mode <;> rfl
@[simp] theorem ackIn_cfg (mode : CvMode) (s : State) : (ackIn mode s).cfg = s.cfg := by cases mode <;> rfl
@[simp] theorem ackIn_now (mode : CvMode) (s : State) : (ackIn mode s).now = s.now := by cases mode <;> rfl
@[simp] theorem ackIn_raw (mode : CvMode) (s : State) : (ackIn mode s).raw = s.raw := by cases mode <;> rfl
@[simp] theorem ackIn_rsp (mode : CvMode) (s : State) : (ackIn mode s).rsp = s.rsp := by cases mode <;> rfl
@[simp] theorem ackIn_port (mode : CvMode) (s : State) : (ackIn mode s).port = s.port := by cases mode <;> rfl


/-! ### The table -/

@[simp] theorem memWrite_table (s : State) (i : Nat) (v : Byte) : (memWrite s i v).table = Memory.write s.table i v := rfl
@[simp] theorem memWrite_defaults (s : State) (i : Nat) (v : Byte) : (memWrite s i v).defaults = s.defaults := rfl
@[simp] theorem memWrite_inited (s : State) (i : Nat) (v : Byte) : (memWrite s i v).inited = s.inited := rfl
@[simp] theorem memWrite_tu (s : State) (i : Nat) (v : Byte) : (memWrite s i v).tu = s.tu := rfl
@[simp] theorem memWrite_ts (s : State) (i : Nat) (v : Byte) : (memWrite s i v).ts = s.ts := rfl
@[simp] theorem memWrite_btn (s : State) (i : Nat) (v : Byte) : (memWrite s i v).btn = s.btn := rfl
@[simp] theorem memWrite_fl (s : State) (i : Nat) (v : Byte) : (memWrite s i v).fl = s.fl := rfl
@[simp] theorem memWrite_sess (s : State) (i : Nat) (v : Byte) : (memWrite s i v).sess = s.sess := rfl
@[simp] theorem memWrite_flashFlag (s : State) (i : Nat) (v : Byte) : (memWrite s i v).flashFlag = s.flashFlag := rfl
@[simp] theorem memWrite_cfg (s : State) (i : Nat) (v : Byte) : (memWrite s i v).cfg = s.cfg := rfl
@[simp] theorem memWrite_now (s : State) (i : Nat) (v : Byte) : (memWrite s i v).now = s.now := rfl
@[simp] theorem memWrite_raw (s : State) (i : Nat) (v : Byte) : (memWrite s i v).raw = s.raw := rfl
@[simp] theorem memWrite_rsp (s : State) (i : Nat) (v : Byte) : (memWrite s i v).rsp = s.rsp := rfl
@[simp] theorem memWrite_events (s : State) (i : Nat) (v : Byte) : (memWrite s i v).events = s.events := rfl
@[simp] theorem memWrite_port (s : State) (i : Nat) (v : Byte) : (memWrite s i v).port = s.port := rfl

/-! ### The units -/

@[simp] theorem buttonRead_table (s : State) : (buttonRead s).table = s.table := rfl
@[simp] theorem buttonRead_defaults (s : State) : (buttonRead s).defaults = s.defaults := rfl
@[simp] theorem buttonRead_inited (s : State) : (buttonRead s).inited = s.inited := rfl
@[simp] theorem buttonRead_tu (s : State) : (buttonRead s).tu = s.tu := rfl
@[simp] theorem buttonRead_ts (s : State) : (buttonRead s).ts = s.ts := rfl
@[simp] theorem buttonRead_btn (s : State) : (buttonRead s).btn = readButton s.cfg s.now s.raw s.btn := rfl
@[simp] theorem buttonRead_fl (s : State) : (buttonRead s).fl = s.fl := rfl
@[simp] theorem buttonRead_sess (s : State) : (buttonRead s).sess = s.sess := rfl
@[simp] theorem buttonRead_flashFlag (s : State) : (buttonRead s).flashFlag = s.flashFlag := rfl
@[simp] theorem buttonRead_cfg (s : State) : (buttonRead s).cfg = s.cfg := rfl
@[simp] theorem buttonRead_now (s : State) : (buttonRead s).now = s.now := rfl
@[simp] theorem buttonRead_raw (s : State) : (buttonRead s).raw = s.raw := rfl
@[simp] theorem buttonRead_rsp (s : State) : (buttonRead s).rsp = s.rsp := rfl
@[simp] theorem buttonRead_events (s : State) : (buttonRead s).events = s.events := rfl
@[simp] theorem buttonRead_port (s : State) : (buttonRead s).port = s.port := rfl

@[simp] theorem flashUpdate_table (s : State) : (flashUpdate s).table = s.table := rfl
@[simp] theorem flashUpdate_defaults (s : State) : (flashUpdate s).defaults = s.defaults := rfl
@[simp] theorem flashUpdate_inited (s : State) : (flashUpdate s).inited = s.inited := rfl
@[simp] theorem flashUpdate_tu (s : State) : (flashUpdate s).tu = s.tu := rfl
@[simp] theorem flashUpdate_ts (s : State) : (flashUpdate s).ts = s.ts := rfl
@[simp] theorem flashUpdate_btn (s : State) : (flashUpdate s).btn = s.btn := rfl
@[simp] theorem flashUpdate_fl (s : State) : (flashUpdate s).fl = updateFlash s.cfg s.now s.fl := rfl
@[simp] theorem flashUpdate_sess (s : State) : (flashUpdate s).sess = s.sess := rfl
@[simp] theorem flashUpdate_flashFlag (s : State) : (flashUpdate s).flashFlag = s.flashFlag := rfl
@[simp] theorem flashUpdate_cfg (s : State) : (flashUpdate s).cfg = s.cfg := rfl
@[simp] theorem flashUpdate_now (s : State) : (flashUpdate s).now = s.now := rfl
@[simp] theorem flashUpdate_raw (s : State) : (flashUpdate s).raw = s.raw := rfl
@[simp] theorem flashUpdate_rsp (s : State) : (flashUpdate s).rsp = s.rsp := rfl
@[simp] theorem flashUpdate_events (s : State) : (flashUpdate s).events = s.events := rfl
@[simp] theorem flashUpdate_port (s : State) : (flashUpdate s).port = s.port := rfl

@[simp] theorem turnOn_table (s : State) : (turnOn s).table = s.table := rfl
@[simp] theorem turnOn_defaults (s : State) : (turnOn s).defaults = s.defaults := rfl
@[simp] theorem turnOn_inited (s : State) : (turnOn s).inited = s.inited := rfl
@[simp] theorem turnOn_tu (s : State) : (turnOn s).tu = s.tu := rfl
@[simp] theorem turnOn_ts (s : State) : (turnOn s).ts = s.ts := rfl
@[simp] theorem turnOn_btn (s : State) : (turnOn s).btn = s.btn := rfl
@[simp] theorem turnOn_fl (s : State) : (turnOn s).fl = lightOn s.fl := rfl
@[simp] theorem turnOn_sess (s : State) : (turnOn s).sess = s.sess := rfl
@[simp] theorem turnOn_flashFlag (s : State) : (turnOn s).flashFlag = s.flashFlag := rfl
@[simp] theorem turnOn_cfg (s : State) : (turnOn s).cfg = s.cfg := rfl
@[simp] theorem turnOn_now (s : State) : (turnOn s).now = s.now := rfl
@[simp] theorem turnOn_raw (s : State) : (turnOn s).raw = s.raw := rfl
@[simp] theorem turnOn_rsp (s : State) : (turnOn s).rsp = s.rsp := rfl
@[simp] theorem turnOn_events (s : State) : (turnOn s).events = s.events := rfl
@[simp] theorem turnOn_port (s : State) : (turnOn s).port = s.port := rfl

@[simp] theorem turnOff_table (s : State) : (turnOff s).table = s.table := rfl
@[simp] theorem turnOff_defaults (s : State) : (turnOff s).defaults = s.defaults := rfl
@[simp] theorem turnOff_inited (s : State) : (turnOff s).inited = s.inited := rfl
@[simp] theorem turnOff_tu (s : State) : (turnOff s).tu = s.tu := rfl
@[simp] theorem turnOff_ts (s : State) : (turnOff s).ts = s.ts := rfl
@[simp] theorem turnOff_btn (s : State) : (turnOff s).btn = s.btn := rfl
@[simp] theorem turnOff_fl (s : State) : (turnOff s).fl = lightOff s.fl := rfl
@[simp] theorem turnOff_sess (s : State) : (turnOff s).sess = s.sess := rfl
@[simp] theorem turnOff_flashFlag (s : State) : (turnOff s).flashFlag = s.flashFlag := rfl
@[simp] theorem turnOff_cfg (s : State) : (turnOff s).cfg = s.cfg := rfl
@[simp] theorem turnOff_now (s : State) : (turnOff s).now = s.now := rfl
@[simp] theorem turnOff_raw (s : State) : (turnOff s).raw = s.raw := rfl
@[simp] theorem turnOff_rsp (s : State) : (turnOff s).rsp = s.rsp := rfl
@[simp] theorem turnOff_events (s : State) : (turnOff s).events = s.events := rfl
@[simp] theorem turnOff_port (s : State) : (turnOff s).port = s.port := rfl

@[simp] theorem configure_table (s : State) (m : FlashMode) (q : Pattern) : (configure s m q).table = s.table := rfl
@[simp] theorem configure_defaults (s : State) (m : FlashMode) (q : Pattern) : (configure s m q).defaults = s.defaults := rfl
@[simp] theorem configure_inited (s : State) (m : FlashMode) (q : Pattern) : (configure s m q).inited = s.inited := rfl
@[simp] theorem configure_tu (s : State) (m : FlashMode) (q : Pattern) : (configure s m q).tu = s.tu := rfl
@[simp] theorem configure_ts (s : State) (m : FlashMode) (q : Pattern) : (configure s m q).ts = s.ts := rfl
@[simp] theorem configure_btn (s : State) (m : FlashMode) (q : Pattern) : (configure s m q).btn = s.btn := rfl
@[simp] theorem configure_fl (s : State) (m : FlashMode) (q : Pattern) : (configure s m q).fl = configured m q s.now := rfl
@[simp] theorem configure_sess (s : State) (m : FlashMode) (q : Pattern) : (configure s m q).sess = s.sess := rfl
@[simp] theorem configure_flashFlag (s : State) (m : FlashMode) (q : Pattern) : (configure s m q).flashFlag = s.flashFlag := rfl
@[simp] theorem configure_cfg (s : State) (m : FlashMode) (q : Pattern) : (configure s m q).cfg = s.cfg := rfl
@[simp] theorem configure_now (s : State) (m : FlashMode) (q : Pattern) : (configure s m q).now = s.now := rfl
@[simp] theorem configure_raw (s : State) (m : FlashMode) (q : Pattern) : (configure s m q).raw = s.raw := rfl
@[simp] theorem configure_rsp (s : State) (m : FlashMode) (q : Pattern) : (configure s m q).rsp = s.rsp := rfl
@[simp] theorem configure_events (s : State) (m : FlashMode) (q : Pattern) : (configure s m q).events = s.events := rfl
@[simp] theorem configure_port (s : State) (m : FlashMode) (q : Pattern) : (configure s m q).port = s.port := rfl

/-! ### Reset, reboot, and the port -/

@[simp] theorem resetWith_table (p : Params) (m : Memory) : (State.resetWith p m).table = m := rfl
@[simp] theorem resetWith_defaults (p : Params) (m : Memory) : (State.resetWith p m).defaults = List.replicate (p.n + 1) 0 := rfl
@[simp] theorem resetWith_inited (p : Params) (m : Memory) : (State.resetWith p m).inited = false := rfl
@[simp] theorem resetWith_tu (p : Params) (m : Memory) : (State.resetWith p m).tu = Timer.reset := rfl
@[simp] theorem resetWith_ts (p : Params) (m : Memory) : (State.resetWith p m).ts = Timer.reset := rfl
@[simp] theorem resetWith_btn (p : Params) (m : Memory) : (State.resetWith p m).btn = Button.reset := rfl
@[simp] theorem resetWith_fl (p : Params) (m : Memory) : (State.resetWith p m).fl = Flash.reset := rfl
@[simp] theorem resetWith_sess (p : Params) (m : Memory) : (State.resetWith p m).sess = .idle := rfl
@[simp] theorem resetWith_flashFlag (p : Params) (m : Memory) : (State.resetWith p m).flashFlag = false := rfl
@[simp] theorem resetWith_cfg (p : Params) (m : Memory) : (State.resetWith p m).cfg = p := rfl
@[simp] theorem resetWith_now (p : Params) (m : Memory) : (State.resetWith p m).now = 0 := rfl
@[simp] theorem resetWith_raw (p : Params) (m : Memory) : (State.resetWith p m).raw = false := rfl
@[simp] theorem resetWith_rsp (p : Params) (m : Memory) : (State.resetWith p m).rsp = 0 := rfl
@[simp] theorem resetWith_events (p : Params) (m : Memory) : (State.resetWith p m).events = [] := rfl
@[simp] theorem resetWith_port (p : Params) (m : Memory) : (State.resetWith p m).port = [] := rfl

@[simp] theorem volatileReset_table (s : State) : (volatileReset s).table = s.table := rfl
@[simp] theorem volatileReset_defaults (s : State) : (volatileReset s).defaults = List.replicate (s.cfg.n + 1) 0 := rfl
@[simp] theorem volatileReset_inited (s : State) : (volatileReset s).inited = false := rfl
@[simp] theorem volatileReset_tu (s : State) : (volatileReset s).tu = Timer.reset := rfl
@[simp] theorem volatileReset_ts (s : State) : (volatileReset s).ts = Timer.reset := rfl
@[simp] theorem volatileReset_btn (s : State) : (volatileReset s).btn = Button.reset := rfl
@[simp] theorem volatileReset_fl (s : State) : (volatileReset s).fl = Flash.reset := rfl
@[simp] theorem volatileReset_sess (s : State) : (volatileReset s).sess = .idle := rfl
@[simp] theorem volatileReset_flashFlag (s : State) : (volatileReset s).flashFlag = false := rfl
@[simp] theorem volatileReset_cfg (s : State) : (volatileReset s).cfg = s.cfg := rfl
@[simp] theorem volatileReset_now (s : State) : (volatileReset s).now = s.now := rfl
@[simp] theorem volatileReset_raw (s : State) : (volatileReset s).raw = s.raw := rfl
@[simp] theorem volatileReset_rsp (s : State) : (volatileReset s).rsp = s.rsp := rfl
@[simp] theorem volatileReset_events (s : State) : (volatileReset s).events = s.events := rfl
@[simp] theorem volatileReset_port (s : State) : (volatileReset s).port = s.port := rfl

@[simp] theorem reboot_table (s : State) : (reboot s).table = s.table := rfl
@[simp] theorem reboot_defaults (s : State) : (reboot s).defaults = List.replicate (s.cfg.n + 1) 0 := rfl
@[simp] theorem reboot_inited (s : State) : (reboot s).inited = false := rfl
@[simp] theorem reboot_tu (s : State) : (reboot s).tu = Timer.reset := rfl
@[simp] theorem reboot_ts (s : State) : (reboot s).ts = Timer.reset := rfl
@[simp] theorem reboot_btn (s : State) : (reboot s).btn = Button.reset := rfl
@[simp] theorem reboot_fl (s : State) : (reboot s).fl = Flash.reset := rfl
@[simp] theorem reboot_sess (s : State) : (reboot s).sess = .idle := rfl
@[simp] theorem reboot_flashFlag (s : State) : (reboot s).flashFlag = false := rfl
@[simp] theorem reboot_cfg (s : State) : (reboot s).cfg = s.cfg := rfl
@[simp] theorem reboot_now (s : State) : (reboot s).now = s.now := rfl
@[simp] theorem reboot_raw (s : State) : (reboot s).raw = s.raw := rfl
@[simp] theorem reboot_rsp (s : State) : (reboot s).rsp = s.rsp := rfl
@[simp] theorem reboot_events (s : State) : (reboot s).events = s.events ++ [.reboot] := rfl
@[simp] theorem reboot_port (s : State) : (reboot s).port = s.port := rfl

@[simp] theorem powerCycle_table (s : State) : (powerCycle s).table = s.table := rfl
@[simp] theorem powerCycle_defaults (s : State) : (powerCycle s).defaults = List.replicate (s.cfg.n + 1) 0 := rfl
@[simp] theorem powerCycle_inited (s : State) : (powerCycle s).inited = false := rfl
@[simp] theorem powerCycle_tu (s : State) : (powerCycle s).tu = Timer.reset := rfl
@[simp] theorem powerCycle_ts (s : State) : (powerCycle s).ts = Timer.reset := rfl
@[simp] theorem powerCycle_btn (s : State) : (powerCycle s).btn = Button.reset := rfl
@[simp] theorem powerCycle_fl (s : State) : (powerCycle s).fl = Flash.reset := rfl
@[simp] theorem powerCycle_sess (s : State) : (powerCycle s).sess = .idle := rfl
@[simp] theorem powerCycle_flashFlag (s : State) : (powerCycle s).flashFlag = false := rfl
@[simp] theorem powerCycle_cfg (s : State) : (powerCycle s).cfg = s.cfg := rfl
@[simp] theorem powerCycle_now (s : State) : (powerCycle s).now = s.now := rfl
@[simp] theorem powerCycle_raw (s : State) : (powerCycle s).raw = s.raw := rfl
@[simp] theorem powerCycle_rsp (s : State) : (powerCycle s).rsp = 0 := rfl
@[simp] theorem powerCycle_events (s : State) : (powerCycle s).events = [] := rfl
@[simp] theorem powerCycle_port (s : State) : (powerCycle s).port = s.port := rfl

@[simp] theorem present_table (r : Request) (s : State) : (present r s).table = s.table := rfl
@[simp] theorem present_defaults (r : Request) (s : State) : (present r s).defaults = s.defaults := rfl
@[simp] theorem present_inited (r : Request) (s : State) : (present r s).inited = s.inited := rfl
@[simp] theorem present_tu (r : Request) (s : State) : (present r s).tu = s.tu := rfl
@[simp] theorem present_ts (r : Request) (s : State) : (present r s).ts = s.ts := rfl
@[simp] theorem present_btn (r : Request) (s : State) : (present r s).btn = s.btn := rfl
@[simp] theorem present_fl (r : Request) (s : State) : (present r s).fl = s.fl := rfl
@[simp] theorem present_sess (r : Request) (s : State) : (present r s).sess = s.sess := rfl
@[simp] theorem present_flashFlag (r : Request) (s : State) : (present r s).flashFlag = s.flashFlag := rfl
@[simp] theorem present_cfg (r : Request) (s : State) : (present r s).cfg = s.cfg := rfl
@[simp] theorem present_now (r : Request) (s : State) : (present r s).now = clkLow s.cfg r.now := rfl
@[simp] theorem present_raw (r : Request) (s : State) : (present r s).raw = r.raw := rfl
@[simp] theorem present_rsp (r : Request) (s : State) : (present r s).rsp = s.rsp := rfl
@[simp] theorem present_events (r : Request) (s : State) : (present r s).events = s.events := rfl
@[simp] theorem present_port (r : Request) (s : State) : (present r s).port = s.port := rfl

/-! ### Timers, button, indicator -/

@[simp] theorem stopTimer_armed (t : Timer) : (stopTimer t).armed = false := rfl
@[simp] theorem stopTimer_duration (t : Timer) : (stopTimer t).duration = t.duration := rfl
@[simp] theorem stopTimer_startTime (t : Timer) : (stopTimer t).startTime = t.startTime := rfl

@[simp] theorem lightOn_onTicks (f : Flash) : (lightOn f).onTicks = f.onTicks := rfl
@[simp] theorem lightOn_offTicks (f : Flash) : (lightOn f).offTicks = f.offTicks := rfl
@[simp] theorem lightOn_burstCount (f : Flash) : (lightOn f).burstCount = f.burstCount := rfl
@[simp] theorem lightOn_pauseTicks (f : Flash) : (lightOn f).pauseTicks = f.pauseTicks := rfl
@[simp] theorem lightOn_mode (f : Flash) : (lightOn f).mode = .alwaysOn := rfl
@[simp] theorem lightOn_ticksRemaining (f : Flash) : (lightOn f).ticksRemaining = f.ticksRemaining := rfl
@[simp] theorem lightOn_burstsSoFar (f : Flash) : (lightOn f).burstsSoFar = f.burstsSoFar := rfl
@[simp] theorem lightOn_led (f : Flash) : (lightOn f).led = true := rfl
@[simp] theorem lightOn_lastTick (f : Flash) : (lightOn f).lastTick = f.lastTick := rfl

@[simp] theorem lightOff_onTicks (f : Flash) : (lightOff f).onTicks = f.onTicks := rfl
@[simp] theorem lightOff_offTicks (f : Flash) : (lightOff f).offTicks = f.offTicks := rfl
@[simp] theorem lightOff_burstCount (f : Flash) : (lightOff f).burstCount = f.burstCount := rfl
@[simp] theorem lightOff_pauseTicks (f : Flash) : (lightOff f).pauseTicks = f.pauseTicks := rfl
@[simp] theorem lightOff_mode (f : Flash) : (lightOff f).mode = .alwaysOff := rfl
@[simp] theorem lightOff_ticksRemaining (f : Flash) : (lightOff f).ticksRemaining = f.ticksRemaining := rfl
@[simp] theorem lightOff_burstsSoFar (f : Flash) : (lightOff f).burstsSoFar = f.burstsSoFar := rfl
@[simp] theorem lightOff_led (f : Flash) : (lightOff f).led = false := rfl
@[simp] theorem lightOff_lastTick (f : Flash) : (lightOff f).lastTick = f.lastTick := rfl

@[simp] theorem configured_onTicks (m : FlashMode) (q : Pattern) (now : Nat) : (configured m q now).onTicks = q.on := rfl
@[simp] theorem configured_offTicks (m : FlashMode) (q : Pattern) (now : Nat) : (configured m q now).offTicks = q.off := rfl
@[simp] theorem configured_burstCount (m : FlashMode) (q : Pattern) (now : Nat) : (configured m q now).burstCount = q.count := rfl
@[simp] theorem configured_pauseTicks (m : FlashMode) (q : Pattern) (now : Nat) : (configured m q now).pauseTicks = q.pause := rfl
@[simp] theorem configured_mode (m : FlashMode) (q : Pattern) (now : Nat) : (configured m q now).mode = m := rfl
@[simp] theorem configured_ticksRemaining (m : FlashMode) (q : Pattern) (now : Nat) : (configured m q now).ticksRemaining = q.on := rfl
@[simp] theorem configured_burstsSoFar (m : FlashMode) (q : Pattern) (now : Nat) : (configured m q now).burstsSoFar = 0 := rfl
@[simp] theorem configured_led (m : FlashMode) (q : Pattern) (now : Nat) : (configured m q now).led = true := rfl
@[simp] theorem configured_lastTick (m : FlashMode) (q : Pattern) (now : Nat) : (configured m q now).lastTick = now := rfl

@[simp] theorem attachButton_rawPin (pin : Byte) (d : BitVec 16) (pu inv : Bool) (now : Nat) (raw : Bool) : (attachButton pin d pu inv now raw).rawPin = pin := rfl
@[simp] theorem attachButton_debounce (pin : Byte) (d : BitVec 16) (pu inv : Bool) (now : Nat) (raw : Bool) : (attachButton pin d pu inv now raw).debounce = d := rfl
@[simp] theorem attachButton_pullupEnabled (pin : Byte) (d : BitVec 16) (pu inv : Bool) (now : Nat) (raw : Bool) : (attachButton pin d pu inv now raw).pullupEnabled = pu := rfl
@[simp] theorem attachButton_invertLogic (pin : Byte) (d : BitVec 16) (pu inv : Bool) (now : Nat) (raw : Bool) : (attachButton pin d pu inv now raw).invertLogic = inv := rfl
@[simp] theorem attachButton_currentState (pin : Byte) (d : BitVec 16) (pu inv : Bool) (now : Nat) (raw : Bool) : (attachButton pin d pu inv now raw).currentState = xor raw inv := rfl
@[simp] theorem attachButton_previousState (pin : Byte) (d : BitVec 16) (pu inv : Bool) (now : Nat) (raw : Bool) : (attachButton pin d pu inv now raw).previousState = xor raw inv := rfl
@[simp] theorem attachButton_changed (pin : Byte) (d : BitVec 16) (pu inv : Bool) (now : Nat) (raw : Bool) : (attachButton pin d pu inv now raw).changed = false := rfl
@[simp] theorem attachButton_lastChangeTime (pin : Byte) (d : BitVec 16) (pu inv : Bool) (now : Nat) (raw : Bool) : (attachButton pin d pu inv now raw).lastChangeTime = now := rfl
@[simp] theorem attachButton_toggleState (pin : Byte) (d : BitVec 16) (pu inv : Bool) (now : Nat) (raw : Bool) : (attachButton pin d pu inv now raw).toggleState = false := rfl
@[simp] theorem attachButton_attached (pin : Byte) (d : BitVec 16) (pu inv : Bool) (now : Nat) (raw : Bool) : (attachButton pin d pu inv now raw).attached = true := rfl

end Sys2Proof.Machine
end

