-- ==== Sys2Proof/Laws/Memory.lean ====
section
/-!
SUPPORT. The persisted byte array: a read after a write, the canonical form and the index range kept
by every write, equal contents are equal data, and what the factory reset leaves.
-/

namespace Sys2Proof.Machine

/-- The only address below every listed one reads as erased. -/
theorem Memory.read_of_lt_all : ∀ (m : Memory) (i : Nat),
    m.all (fun c => decide (i < c.1)) = true → Memory.read m i = erasedByte
  | [], _, _ => rfl
  | (a, b) :: rest, i, h => by
    simp only [List.all_cons, Bool.and_eq_true, decide_eq_true_eq] at h
    rw [Memory.read, if_neg (by omega)]
    exact Memory.read_of_lt_all rest i h.2

theorem Memory.wf_cons {a : Nat} {b : Byte} {rest : Memory} :
    Memory.wf ((a, b) :: rest) = true ↔
      b ≠ erasedByte ∧ rest.all (fun c => decide (a < c.1)) = true ∧ Memory.wf rest = true := by
  simp [Memory.wf, and_assoc]

/-- A read after a write to the same index gives the byte written. -/
theorem Memory.read_write_same : ∀ (m : Memory) (i : Nat) (v : Byte), Memory.wf m = true →
    Memory.read (Memory.write m i v) i = v
  | [], i, v, _ => by
    by_cases hv : v = erasedByte <;> simp [Memory.write, Memory.read, hv]
  | (a, b) :: rest, i, v, h => by
    obtain ⟨-, hall, hwf⟩ := Memory.wf_cons.1 h
    unfold Memory.write
    by_cases h1 : i < a
    · rw [if_pos h1]
      by_cases hv : v = erasedByte
      · rw [if_pos hv, hv]
        refine Memory.read_of_lt_all _ _ ?_
        simp only [List.all_cons, Bool.and_eq_true, decide_eq_true_eq]
        refine ⟨h1, ?_⟩
        simp only [List.all_eq_true, decide_eq_true_eq] at hall ⊢
        exact fun c hc => lt_trans h1 (hall c hc)
      · rw [if_neg hv]
        simp [Memory.read]
    · rw [if_neg h1]
      by_cases h2 : i = a
      · rw [if_pos h2]
        by_cases hv : v = erasedByte
        · rw [if_pos hv, hv, h2]
          exact Memory.read_of_lt_all _ _ hall
        · rw [if_neg hv]
          simp [Memory.read]
      · rw [if_neg h2, Memory.read, if_neg (fun h => h2 h.symm)]
        exact Memory.read_write_same rest i v hwf

/-- A write leaves every other index alone. -/
theorem Memory.read_write_other : ∀ (m : Memory) (i j : Nat) (v : Byte), j ≠ i →
    Memory.read (Memory.write m i v) j = Memory.read m j
  | [], i, j, v, hne => by
    by_cases hv : v = erasedByte <;> simp [Memory.write, Memory.read, hv, hne.symm]
  | (a, b) :: rest, i, j, v, hne => by
    unfold Memory.write
    by_cases h1 : i < a
    · rw [if_pos h1]
      by_cases hv : v = erasedByte
      · rw [if_pos hv]
      · rw [if_neg hv, Memory.read, if_neg (fun h => hne h.symm)]
    · rw [if_neg h1]
      by_cases h2 : i = a
      · rw [if_pos h2]
        by_cases hv : v = erasedByte
        · rw [if_pos hv, Memory.read, if_neg (by omega)]
        · rw [if_neg hv, Memory.read, Memory.read, if_neg (fun h => hne h.symm),
            if_neg (by omega)]
      · rw [if_neg h2, Memory.read, Memory.read, Memory.read_write_other rest i j v hne]

/-- A read after a write, both cases. -/
theorem Memory.read_write (m : Memory) (i j : Nat) (v : Byte) (h : Memory.wf m = true) :
    Memory.read (Memory.write m i v) j = if j = i then v else Memory.read m j := by
  by_cases hj : j = i
  · rw [if_pos hj, hj, Memory.read_write_same m i v h]
  · rw [if_neg hj, Memory.read_write_other m i j v hj]

/-- What holds of every listed cell and of the written index holds of every cell after the write. -/
theorem Memory.all_write (P : Nat → Bool) : ∀ (m : Memory) (i : Nat) (v : Byte),
    m.all (fun c => P c.1) = true → P i = true →
    (Memory.write m i v).all (fun c => P c.1) = true
  | [], i, v, _, hi => by
    by_cases hv : v = erasedByte <;> simp [Memory.write, hv, hi]
  | (a, b) :: rest, i, v, h, hi => by
    simp only [List.all_cons, Bool.and_eq_true] at h
    unfold Memory.write
    split
    · split <;> simp [hi, h.1, h.2]
    · split
      · split <;> simp [hi, h.2]
      · simp [h.1, Memory.all_write P rest i v h.2 hi]

/-- A write keeps the canonical form. -/
theorem Memory.wf_write : ∀ (m : Memory) (i : Nat) (v : Byte), Memory.wf m = true →
    Memory.wf (Memory.write m i v) = true
  | [], i, v, _ => by
    by_cases hv : v = erasedByte <;> simp [Memory.write, Memory.wf, hv]
  | (a, b) :: rest, i, v, h => by
    obtain ⟨hb, hall, hwf⟩ := Memory.wf_cons.1 h
    unfold Memory.write
    by_cases h1 : i < a
    · rw [if_pos h1]
      by_cases hv : v = erasedByte
      · rw [if_pos hv]; exact h
      · rw [if_neg hv]
        refine Memory.wf_cons.2 ⟨hv, ?_, h⟩
        simp only [List.all_cons, Bool.and_eq_true, decide_eq_true_eq]
        refine ⟨h1, ?_⟩
        simp only [List.all_eq_true, decide_eq_true_eq] at hall ⊢
        exact fun c hc => lt_trans h1 (hall c hc)
    · rw [if_neg h1]
      by_cases h2 : i = a
      · rw [if_pos h2]
        by_cases hv : v = erasedByte
        · rw [if_pos hv]; exact hwf
        · rw [if_neg hv]
          exact Memory.wf_cons.2 ⟨hv, h2 ▸ hall, hwf⟩
      · rw [if_neg h2]
        refine Memory.wf_cons.2 ⟨hb, ?_, Memory.wf_write rest i v hwf⟩
        exact Memory.all_write (fun k => decide (a < k)) rest i v hall
          (by simp only [decide_eq_true_eq]; omega)

/-- A write inside the index range keeps every listed index inside it. -/
theorem Memory.within_write (n : Nat) (m : Memory) (i : Nat) (v : Byte)
    (h : Memory.within n m = true) (hi : i ≤ n) : Memory.within n (Memory.write m i v) = true :=
  Memory.all_write (fun k => decide (k ≤ n)) m i v h (by simpa using hi)

/-- No listed index above the range: such an index reads as erased. -/
theorem Memory.read_of_within : ∀ (n : Nat) (m : Memory) (i : Nat), Memory.within n m = true →
    n < i → Memory.read m i = erasedByte
  | _, [], _, _, _ => rfl
  | n, (a, b) :: rest, i, h, hi => by
    simp only [Memory.within, List.all_cons, Bool.and_eq_true, decide_eq_true_eq] at h
    rw [Memory.read, if_neg (by omega)]
    exact Memory.read_of_within n rest i h.2 hi

/-- Canonical memories with the same contents are the same data. -/
theorem Memory.ext_read : ∀ (m m' : Memory), Memory.wf m = true → Memory.wf m' = true →
    (∀ i, Memory.read m i = Memory.read m' i) → m = m'
  | [], [], _, _, _ => rfl
  | [], (a, b) :: rest, _, h', h => by
    have := h a
    simp only [Memory.read, if_pos] at this
    exact absurd this.symm (Memory.wf_cons.1 h').1
  | (a, b) :: rest, [], h', _, h => by
    have := h a
    simp only [Memory.read, if_pos] at this
    exact absurd this (Memory.wf_cons.1 h').1
  | (a, b) :: rest, (a', b') :: rest', h1, h2, h => by
    obtain ⟨hb, hall, hwf⟩ := Memory.wf_cons.1 h1
    obtain ⟨hb', hall', hwf'⟩ := Memory.wf_cons.1 h2
    have haa : a = a' := by
      rcases Nat.lt_trichotomy a a' with hlt | heq | hgt
      · have := h a
        rw [Memory.read, if_pos rfl, Memory.read, if_neg (by omega),
          Memory.read_of_lt_all rest' a ?_] at this
        · exact absurd this hb
        · simp only [List.all_eq_true, decide_eq_true_eq] at hall' ⊢
          exact fun c hc => lt_trans hlt (hall' c hc)
      · exact heq
      · have := h a'
        rw [Memory.read, if_neg (by omega), Memory.read, if_pos rfl,
          Memory.read_of_lt_all rest a' ?_] at this
        · exact absurd this.symm hb'
        · simp only [List.all_eq_true, decide_eq_true_eq] at hall ⊢
          exact fun c hc => lt_trans hgt (hall c hc)
    subst haa
    have hbb : b = b' := by simpa [Memory.read] using h a
    subst hbb
    have hrest : rest = rest' := by
      refine Memory.ext_read rest rest' hwf hwf' fun i => ?_
      by_cases hi : a = i
      · subst hi
        rw [Memory.read_of_lt_all rest a hall, Memory.read_of_lt_all rest' a hall']
      · simpa [Memory.read, hi] using h i
    rw [hrest]

/-- The memory of the reset state has the canonical form. -/
theorem State.reset_table_wf : Memory.wf State.reset.table = true := rfl

/-! ### The factory reset -/

/-- The writes of the factory reset, one index after another, as one fold. -/
theorem foldl_memWrite_frame (d : Nat → Byte) (is : List Nat) (s : State) :
    is.foldl (fun t i => memWrite t i (d i)) s =
      { s with table := is.foldl (fun m i => Memory.write m i (d i)) s.table } := by
  induction is generalizing s with
  | nil => rfl
  | cons i is ih => rw [List.foldl_cons, ih]; rfl

/-- The factory reset changes the table and nothing else (R101). -/
theorem setDefaults_eq (s : State) :
    setDefaults s = { s with table :=
      (List.range (s.cfg.n + 1)).foldl (fun m i => Memory.write m i (defaultAt s i)) s.table } :=
  foldl_memWrite_frame (defaultAt s) _ s

theorem foldl_write_wf (d : Nat → Byte) (is : List Nat) (m : Memory) (h : Memory.wf m = true) :
    Memory.wf (is.foldl (fun m i => Memory.write m i (d i)) m) = true := by
  induction is generalizing m with
  | nil => exact h
  | cons i is ih => exact ih _ (Memory.wf_write m i (d i) h)

theorem foldl_write_within (n : Nat) (d : Nat → Byte) (is : List Nat) (m : Memory)
    (h : Memory.within n m = true) (his : ∀ i ∈ is, i ≤ n) :
    Memory.within n (is.foldl (fun m i => Memory.write m i (d i)) m) = true := by
  induction is generalizing m with
  | nil => exact h
  | cons i is ih =>
    exact ih _ (Memory.within_write n m i (d i) h (his i (by simp)))
      fun j hj => his j (by simp [hj])

theorem foldl_write_read (d : Nat → Byte) (is : List Nat) (m : Memory) (j : Nat)
    (h : Memory.wf m = true) :
    Memory.read (is.foldl (fun m i => Memory.write m i (d i)) m) j =
      if j ∈ is then d j else Memory.read m j := by
  induction is generalizing m with
  | nil => simp
  | cons i is ih =>
    rw [List.foldl_cons, ih _ (Memory.wf_write m i (d i) h), Memory.read_write m i j (d i) h]
    by_cases hj : j = i
    · subst hj; simp
    · simp [hj]

/-- After the factory reset every index of the table holds its default, and nothing else has
changed (R101). -/
theorem setDefaults_read (s : State) (j : Nat) (h : Memory.wf s.table = true) :
    memRead (setDefaults s) j = if j ≤ s.cfg.n then defaultAt s j else memRead s j := by
  rw [setDefaults_eq, memRead, memRead, foldl_write_read _ _ _ _ h]
  simp

theorem setDefaults_table_wf (s : State) (h : Memory.wf s.table = true) :
    Memory.wf (setDefaults s).table = true := by
  rw [setDefaults_eq]; exact foldl_write_wf _ _ _ h

theorem setDefaults_table_within (s : State) (h : Memory.within s.cfg.n s.table = true) :
    Memory.within s.cfg.n (setDefaults s).table = true := by
  rw [setDefaults_eq]
  exact foldl_write_within _ _ _ _ h fun i hi => by simpa [Nat.lt_succ_iff] using hi

@[simp] theorem setDefaults_defaults (s : State) : (setDefaults s).defaults = s.defaults := by
  rw [setDefaults_eq]
@[simp] theorem setDefaults_inited (s : State) : (setDefaults s).inited = s.inited := by
  rw [setDefaults_eq]
@[simp] theorem setDefaults_tu (s : State) : (setDefaults s).tu = s.tu := by
  rw [setDefaults_eq]
@[simp] theorem setDefaults_ts (s : State) : (setDefaults s).ts = s.ts := by
  rw [setDefaults_eq]
@[simp] theorem setDefaults_btn (s : State) : (setDefaults s).btn = s.btn := by
  rw [setDefaults_eq]
@[simp] theorem setDefaults_fl (s : State) : (setDefaults s).fl = s.fl := by
  rw [setDefaults_eq]
@[simp] theorem setDefaults_sess (s : State) : (setDefaults s).sess = s.sess := by
  rw [setDefaults_eq]
@[simp] theorem setDefaults_flashFlag (s : State) : (setDefaults s).flashFlag = s.flashFlag := by
  rw [setDefaults_eq]
@[simp] theorem setDefaults_cfg (s : State) : (setDefaults s).cfg = s.cfg := by
  rw [setDefaults_eq]
@[simp] theorem setDefaults_now (s : State) : (setDefaults s).now = s.now := by
  rw [setDefaults_eq]
@[simp] theorem setDefaults_raw (s : State) : (setDefaults s).raw = s.raw := by
  rw [setDefaults_eq]
@[simp] theorem setDefaults_rsp (s : State) : (setDefaults s).rsp = s.rsp := by
  rw [setDefaults_eq]
@[simp] theorem setDefaults_events (s : State) : (setDefaults s).events = s.events := by
  rw [setDefaults_eq]
@[simp] theorem setDefaults_port (s : State) : (setDefaults s).port = s.port := by
  rw [setDefaults_eq]

end Sys2Proof.Machine
end

