-- ==== Sys2Proof/Laws/Ops.lean ====
section
/-!
SUPPORT. One lemma for each shared operation that says once what it can do. Later proofs cite these
instead of unfolding the operations.
-/

namespace Sys2Proof.Machine

/-! ### Clock values -/

theorem clkLow_lt (p : Params) (t : Nat) : clkLow p t < 2 ^ p.clkBits :=
  Nat.mod_lt _ (Nat.two_pow_pos _)

theorem clkSub_lt (p : Params) (a b : Nat) : clkSub p a b < 2 ^ p.clkBits :=
  Nat.mod_lt _ (Nat.two_pow_pos _)

theorem clkLow_of_lt {p : Params} {t : Nat} (h : t < 2 ^ p.clkBits) : clkLow p t = t :=
  Nat.mod_eq_of_lt h

/-- Without a wrap between the two, the modular difference is the difference. -/
theorem clkSub_of_le {p : Params} {a b : Nat} (ha : a < 2 ^ p.clkBits) (hb : b ≤ a) :
    clkSub p a b = a - b := by
  unfold clkSub
  have hpos := Nat.two_pow_pos p.clkBits
  rw [Nat.mod_eq_of_lt (lt_of_le_of_lt hb ha)]
  have : a + (2 ^ p.clkBits - b) = (a - b) + 2 ^ p.clkBits := by omega
  rw [this, Nat.add_mod_right, Nat.mod_eq_of_lt (by omega)]

/-- With one wrap between the two, it is the time that has passed (R11, R174). -/
theorem clkSub_of_lt {p : Params} {a b : Nat} (hb : b < 2 ^ p.clkBits) (h : a < b) :
    clkSub p a b = 2 ^ p.clkBits - b + a := by
  unfold clkSub
  rw [Nat.mod_eq_of_lt hb, Nat.mod_eq_of_lt (by omega)]
  omega

/-- After `d` milliseconds, wrapped or not, the difference is `d` (R11). -/
theorem clkSub_clkLow_add (p : Params) (t d : Nat) (hd : d < 2 ^ p.clkBits) :
    clkSub p (clkLow p (t + d)) t = d := by
  unfold clkSub clkLow
  have hpos := Nat.two_pow_pos p.clkBits
  rw [Nat.mod_add_mod]
  have hdiv := Nat.div_add_mod t (2 ^ p.clkBits)
  have hlt := Nat.mod_lt t hpos
  have : t + d + (2 ^ p.clkBits - t % 2 ^ p.clkBits) =
      d + 2 ^ p.clkBits * (t / 2 ^ p.clkBits + 1) := by
    rw [Nat.mul_add]; omega
  rw [this, Nat.add_mul_mod_self_left, Nat.mod_eq_of_lt hd]

/-! ### Requirements -/

theorem whenBooted_next {s t u : State} :
    whenBooted s t = .next u ↔ booted s = true ∧ t = u := by
  unfold whenBooted; split <;> simp_all

theorem whenAttached_next {s t u : State} :
    whenAttached s t = .next u ↔ s.btn.attached = true ∧ t = u := by
  unfold whenAttached; split <;> simp_all

theorem whenIndexOk_cases (cvNumber : BitVec 16) (s t : State) :
    (cvIndexOk s.cfg cvNumber = true ∧ whenIndexOk cvNumber s t = t) ∨
    (cvIndexOk s.cfg cvNumber = false ∧ whenIndexOk cvNumber s t = dropped s) := by
  unfold whenIndexOk; split <;> simp_all

theorem cvIndexOk_iff (p : Params) (cvNumber : BitVec 16) :
    cvIndexOk p cvNumber = true ↔ p.cvMin ≤ cvNumber.toNat ∧ cvNumber.toNat ≤ p.n := by
  simp only [cvIndexOk, Bool.and_eq_true, decide_eq_true_eq]
  exact Iff.rfl

theorem booted_iff (s : State) : booted s = true ↔ s.inited = true ∧ s.btn.attached = true := by
  simp [booted]

/-! ### Timers -/

/-- What `setTime` can do (R64): arm with a positive duration, or disarm. -/
theorem setTime_cases (p : Params) (now : Nat) (t : Timer) (d : Nat) :
    (0 < clkLow p d ∧ setTime p now t d = ⟨true, clkLow p d, now⟩) ∨
    (clkLow p d = 0 ∧ setTime p now t d = ⟨false, 0, t.startTime⟩) := by
  unfold setTime
  by_cases h : 0 < clkLow p d
  · exact .inl ⟨h, by simp [h]⟩
  · have h0 : clkLow p d = 0 := by omega
    exact .inr ⟨h0, by simp [h0]⟩

/-- What `expired` can do (R65): fire once and disarm, or nothing. -/
theorem expire_cases (p : Params) (now : Nat) (t : Timer) :
    (firesNow p now t = true ∧ expire p now t = { t with armed := false }) ∨
    (firesNow p now t = false ∧ expire p now t = t) := by
  unfold expire; split <;> simp_all

theorem firesNow_iff (p : Params) (now : Nat) (t : Timer) :
    firesNow p now t = true ↔ t.armed = true ∧ t.duration ≤ clkSub p now t.startTime := by
  simp [firesNow, hasElapsed]

/-! ### The button -/

/-- What a read can do (R74): reject inside the window, accept a transition, or see no change. -/
theorem readButton_cases (p : Params) (now : Nat) (raw : Bool) (b : Button) :
    (sinceChange p now b < b.debounce.toNat ∧
      readButton p now raw b = { b with changed := false }) ∨
    (b.debounce.toNat ≤ sinceChange p now b ∧ sampleOf b raw ≠ b.currentState ∧
      readButton p now raw b =
        { b with previousState := b.currentState, currentState := sampleOf b raw, changed := true,
                 lastChangeTime := now,
                 toggleState := if sampleOf b raw then !b.toggleState else b.toggleState }) ∨
    (b.debounce.toNat ≤ sinceChange p now b ∧ sampleOf b raw = b.currentState ∧
      readButton p now raw b = { b with previousState := b.currentState, changed := false }) := by
  unfold readButton inWindow acceptSample
  by_cases h : sinceChange p now b < b.debounce.toNat
  · exact .inl ⟨h, by simp [h]⟩
  · by_cases hs : sampleOf b raw = b.currentState
    · exact .inr (.inr ⟨by omega, hs, by simp [h, hs]⟩)
    · exact .inr (.inl ⟨by omega, hs, by simp [h, hs]⟩)

/-- A read never touches what `BTN.ATTACH` set (R74). -/
@[simp] theorem readButton_attached (p : Params) (now : Nat) (raw : Bool) (b : Button) :
    (readButton p now raw b).attached = b.attached := by
  rcases readButton_cases p now raw b with ⟨-, h⟩ | ⟨-, -, h⟩ | ⟨-, -, h⟩ <;> rw [h]

@[simp] theorem readButton_debounce (p : Params) (now : Nat) (raw : Bool) (b : Button) :
    (readButton p now raw b).debounce = b.debounce := by
  rcases readButton_cases p now raw b with ⟨-, h⟩ | ⟨-, -, h⟩ | ⟨-, -, h⟩ <;> rw [h]

/-! ### The indicator -/

theorem timedMode_iff (f : Flash) :
    timedMode f = true ↔ f.mode = .singleBurst ∨ f.mode = .continuousBursts := by
  simp [timedMode]

/-- What an update can do (R90): nothing, or one time step of a timed mode. -/
theorem updateFlash_cases (p : Params) (now : Nat) (f : Flash) :
    (timedMode f = false ∧ updateFlash p now f = f) ∨
    (timedMode f = true ∧ clkSub p now f.lastTick < p.tickMs ∧ updateFlash p now f = f) ∨
    (timedMode f = true ∧ p.tickMs ≤ clkSub p now f.lastTick ∧
      updateFlash p now f = timeStep now f) := by
  unfold updateFlash
  by_cases h : timedMode f = true
  · by_cases h2 : clkSub p now f.lastTick < p.tickMs
    · exact .inr (.inl ⟨h, h2, by simp [h, h2]⟩)
    · exact .inr (.inr ⟨h, by omega, by simp [h, h2]⟩)
  · simp only [Bool.not_eq_true] at h
    exact .inl ⟨h, by simp [h]⟩

/-- What a time step can do (R90), by the interval it is in. -/
theorem timeStep_cases (now : Nat) (f : Flash) :
    (f.ticksRemaining - 1 ≠ 0 ∧
      timeStep now f =
        { f with
          lastTick := now, ticksRemaining := f.ticksRemaining - 1 }) ∨
    (f.ticksRemaining - 1 = 0 ∧ f.led = true ∧
      (f.burstsSoFar + 1).toNat < f.burstCount.toNat ∧
      timeStep now f =
        { f with
          lastTick := now, led := false, burstsSoFar := f.burstsSoFar + 1, ticksRemaining := f.offTicks }) ∨
    (f.ticksRemaining - 1 = 0 ∧ f.led = true ∧
      f.burstCount.toNat ≤ (f.burstsSoFar + 1).toNat ∧ f.mode = .singleBurst ∧
      timeStep now f =
        { f with
          lastTick := now, led := false, burstsSoFar := f.burstsSoFar + 1, ticksRemaining := 0, mode := .alwaysOff }) ∨
    (f.ticksRemaining - 1 = 0 ∧ f.led = true ∧
      f.burstCount.toNat ≤ (f.burstsSoFar + 1).toNat ∧ f.mode ≠ .singleBurst ∧
      timeStep now f =
        { f with
          lastTick := now, led := false, burstsSoFar := f.burstsSoFar + 1, ticksRemaining := f.pauseTicks }) ∨
    (f.ticksRemaining - 1 = 0 ∧ f.led = false ∧ f.burstCount.toNat ≤ f.burstsSoFar.toNat ∧
      timeStep now f =
        { f with
          lastTick := now, led := true, burstsSoFar := 0, ticksRemaining := f.onTicks }) ∨
    (f.ticksRemaining - 1 = 0 ∧ f.led = false ∧ f.burstsSoFar.toNat < f.burstCount.toNat ∧
      timeStep now f =
        { f with
          lastTick := now, led := true, ticksRemaining := f.onTicks }) := by
  by_cases h0 : f.ticksRemaining - 1 = 0
  · have hs : timeStep now f = nextInterval { f with lastTick := now, ticksRemaining := 0 } := by
      unfold timeStep; rw [h0]; rfl
    rw [hs]
    unfold nextInterval
    cases hl : f.led
    · rcases Nat.lt_or_ge f.burstsSoFar.toNat f.burstCount.toNat with hb | hb
      · refine .inr (.inr (.inr (.inr (.inr ⟨h0, rfl, hb, ?_⟩))))
        simp [Nat.not_le.2 hb]
      · refine .inr (.inr (.inr (.inr (.inl ⟨h0, rfl, hb, ?_⟩))))
        simp [hb]
    · rcases Nat.lt_or_ge (f.burstsSoFar + 1).toNat f.burstCount.toNat with hb | hb
      · refine .inr (.inl ⟨h0, rfl, hb, ?_⟩)
        dsimp only
        rw [if_pos rfl, if_pos hb]
      · by_cases hm : f.mode = .singleBurst
        · refine .inr (.inr (.inl ⟨h0, rfl, hb, hm, ?_⟩))
          dsimp only
          rw [if_pos rfl, if_neg (Nat.not_lt.2 hb), if_pos hm]
        · refine .inr (.inr (.inr (.inl ⟨h0, rfl, hb, hm, ?_⟩)))
          dsimp only
          rw [if_pos rfl, if_neg (Nat.not_lt.2 hb), if_neg hm]
  · refine .inl ⟨h0, ?_⟩
    unfold timeStep
    exact if_pos h0

theorem hostConfigure_next {m : FlashMode} {q : Pattern} {s t : State} :
    hostConfigure m q s = .next t ↔ patternUsable m q = true ∧ configure (opStart s) m q = t := by
  unfold hostConfigure; split <;> simp_all

/-- The machine's own check of a pattern is the well-formedness of the operands (R85). -/
theorem patternUsable_single (on off count pause : Byte) :
    patternUsable .singleBurst ⟨on, off, count, pause⟩ = singleFieldsOk on off count := by
  have key : count ≠ 0 → (count.toNat ≤ 1 ↔ count = 1) := by
    intro h0
    have := BitVec.toNat_ne_iff_ne.2 h0
    constructor
    · intro h; apply BitVec.eq_of_toNat_eq; simp at this ⊢; omega
    · rintro rfl; decide
  unfold patternUsable singleFieldsOk
  by_cases h : count = 0
  · simp [h]
  · by_cases h1 : count = 1
    · simp [h1]
    · have h2 : ¬ count.toNat ≤ 1 := fun hc => h1 ((key h).1 hc)
      have h3 : (count == 1) = false := beq_eq_false_iff_ne.2 h1
      dsimp only
      rw [h3, decide_eq_false h2]

theorem patternUsable_cont (on off count pause : Byte) :
    patternUsable .continuousBursts ⟨on, off, count, pause⟩ =
      contFieldsOk on off count pause := by
  have := patternUsable_single on off count pause
  unfold patternUsable at this ⊢
  unfold contFieldsOk
  rw [← this]

/-! ### The CV Command Processor -/

/-- What `writeByte` can do (R119), by the index it names. -/
theorem writeByte_cases (idx : Nat) (v : Byte) (mode : CvMode) (s : State) :
    (idx = s.cfg.idxVersion ∧ writeByte idx v mode s = s) ∨
    (idx = s.cfg.idxVid ∧ v = s.cfg.resetSentinel ∧
      writeByte idx v mode s = reboot (ackIn mode (setDefaults s))) ∨
    (idx = s.cfg.idxVid ∧ v ≠ s.cfg.resetSentinel ∧ writeByte idx v mode s = s) ∨
    (idx = s.cfg.idxRestart ∧ v ≠ 0 ∧ writeByte idx v mode s = reboot s) ∨
    (idx = s.cfg.idxRestart ∧ v = 0 ∧ writeByte idx v mode s = s) ∨
    (idx = s.cfg.idxSearch ∧ v ≠ 0 ∧ writeByte idx v mode s =
      { configure s .continuousBursts s.cfg.patSearch with flashFlag := true }) ∨
    (idx = s.cfg.idxSearch ∧ v = 0 ∧ writeByte idx v mode s =
      { turnOff s with flashFlag := false }) ∨
    (idx ≠ s.cfg.idxVersion ∧ idx ≠ s.cfg.idxVid ∧ idx ≠ s.cfg.idxRestart ∧
      idx ≠ s.cfg.idxSearch ∧ writeByte idx v mode s = ackIn mode (memWrite s idx v)) := by
  unfold writeByte writeSearch
  split
  · exact .inl ⟨by assumption, rfl⟩
  · split
    · split
      · exact .inr (.inl ⟨by assumption, by assumption, rfl⟩)
      · exact .inr (.inr (.inl ⟨by assumption, by assumption, rfl⟩))
    · split
      · split
        · exact .inr (.inr (.inr (.inl ⟨by assumption, by assumption, rfl⟩)))
        · rename_i h; simp only [ne_eq, not_not] at h
          exact .inr (.inr (.inr (.inr (.inl ⟨by assumption, h, rfl⟩))))
      · split
        · split
          · exact .inr (.inr (.inr (.inr (.inr (.inl ⟨by assumption, by assumption, rfl⟩)))))
          · rename_i h; simp only [ne_eq, not_not] at h
            exact .inr (.inr (.inr (.inr (.inr (.inr (.inl ⟨by assumption, h, rfl⟩))))))
        · exact .inr (.inr (.inr (.inr (.inr (.inr (.inr
            ⟨by assumption, by assumption, by assumption, by assumption, rfl⟩))))))

/-! ### The session and the tick -/

/-- What the session's part of a tick can do (R131 to R134). -/
theorem sessionTick_cases (s : State) :
    (s.sess = .idle ∧ wasPressed s.btn = true ∧
      sessionTick s = { turnOn s with sess := .armed }) ∨
    (s.sess = .armed ∧ pressedFor s.cfg s.now s.btn s.cfg.longHoldMs = true ∧
      sessionTick s = reboot (setDefaults (turnOff s))) ∨
    (s.sess = .armed ∧ s.btn.currentState = false ∧
      sessionTick s = { configure s .continuousBursts s.cfg.patFast with sess := .waiting }) ∨
    (s.sess = .waiting ∧ wasPressed s.btn = true ∧
      sessionTick s = { turnOff s with sess := .idle }) ∨
    (s.sess = .captured ∧ firesNow s.cfg s.now s.ts = true ∧
      sessionTick s = reboot { s with ts := expire s.cfg s.now s.ts }) ∨
    ((s.sess = .idle → wasPressed s.btn = false) ∧
      (s.sess = .armed → s.btn.currentState = true ∧
        pressedFor s.cfg s.now s.btn s.cfg.longHoldMs = false) ∧
      (s.sess = .waiting → wasPressed s.btn = false) ∧
      (s.sess = .captured → firesNow s.cfg s.now s.ts = false) ∧ sessionTick s = s) := by
  unfold sessionTick
  cases hs : s.sess
  · simp only [reduceCtorEq, false_and, false_or, true_and, IsEmpty.forall_iff, forall_true_left]
    unfold sessionIdle
    by_cases h : wasPressed s.btn = true <;> simp [h]
  · simp only [reduceCtorEq, false_and, false_or, true_and, IsEmpty.forall_iff, forall_true_left]
    unfold sessionArmed
    by_cases h : pressedFor s.cfg s.now s.btn s.cfg.longHoldMs = true
    · simp [h]
    · by_cases hc : s.btn.currentState = true <;> simp [h, hc]
  · simp only [reduceCtorEq, false_and, false_or, true_and, IsEmpty.forall_iff, forall_true_left]
    unfold sessionWaiting
    by_cases h : wasPressed s.btn = true <;> simp [h]
  · simp only [reduceCtorEq, false_and, false_or, true_and, IsEmpty.forall_iff, forall_true_left]
    unfold sessionCaptured
    by_cases h : firesNow s.cfg s.now s.ts = true
    · simp [h, hs]
    · simp only [Bool.not_eq_true] at h
      simp [h, expire]

/-- What a tick can do (R143): the session reboots and the rest is skipped, or the session's part is
followed by the indicator's. -/
theorem tick_cases (s : State) :
    (Event.reboot ∈ (sessionTick (buttonRead (opStart s))).events ∧
      tick s = sessionTick (buttonRead (opStart s))) ∨
    (Event.reboot ∉ (sessionTick (buttonRead (opStart s))).events ∧
      tick s = flashUpdate (sessionTick (buttonRead (opStart s)))) := by
  unfold tick
  by_cases h : Event.reboot ∈ (sessionTick (buttonRead (opStart s))).events
  · exact .inl ⟨h, by simp [h]⟩
  · exact .inr ⟨h, by simp [h]⟩

/-- What `ACC` can do once booted (R135): capture, or nothing. -/
theorem execAcc_next {address : BitVec 11} {isMine isBroadcast : Bool} {s t : State} :
    execAcc address isMine isBroadcast s = .next t ↔ booted s = true ∧
      ((captures isMine isBroadcast s = true ∧ capture address (opStart s) = t) ∨
       (captures isMine isBroadcast s = false ∧ dropped s = t)) := by
  unfold execAcc
  rw [whenBooted_next]
  cases captures isMine isBroadcast s <;> simp

/-! ### Steps -/

theorem step_idle {s : State} (h : s.port = []) : step s = .next (dropped s) := by
  simp [step, h, idlePoll]

theorem step_operation {s : State} {r : Request} {rest : List Stimulus}
    (h : s.port = .operation r :: rest) : step s = issue r { s with port := rest } := by
  simp [step, h]

theorem step_powerCycle {s : State} {rest : List Stimulus} (h : s.port = .powerCycle :: rest) :
    step s = .next (powerCycle { s with port := rest }) := by
  simp [step, h]

theorem issue_instr {r : Request} {i : Instr} (h : decode r.word = .instr i) (s : State) :
    issue r s = exec i (present r s) := by
  simp [issue, h]

theorem issue_reserved {r : Request} {why : Reserved} (h : decode r.word = .reserved why)
    (s : State) : issue r s = .next (dropped (present r s)) := by
  simp [issue, h, dropReserved]

/-! ### Sequences of operations -/

theorem andThen_next {r : Result} {k : State → Result} {t : State} :
    andThen r k = .next t ↔ ∃ u, r = .next u ∧ k u = .next t := by
  cases r <;> simp [andThen]

theorem runRequests_cons_next {r : Request} {rest : List Request} {s t : State} :
    runRequests (r :: rest) s = .next t ↔ ∃ u, issue r s = .next u ∧ runRequests rest u = .next t :=
  andThen_next

theorem bootFrom_next {init : Instr} {s t : State} :
    bootFrom init s = .next t ↔ ∃ s1 s2 s3,
      exec init s = .next s1 ∧ exec .cvsNotinit s1 = .next s2 ∧ bootRepair s2 = .next s3 ∧ exec (bootAttach s3.cfg) s3 = .next t := by
  simp [bootFrom, andThen_next]

/-! ### The factory image -/

theorem defaultImage_at (p : Params) (decoderType version : Byte) {i : Nat} (h : i ≤ p.n) :
    (defaultImage p decoderType version).getD i 0 = imageByte p decoderType version i := by
  simp [defaultImage, List.getElem?_range (show i < p.n + 1 by omega)]

/-- Once `CVS.INIT` has run, a consistent store's default marker is the magic value (R98). -/
theorem StoreOk.default_marker {s : State} (h : StoreOk s) (hi : s.inited = true) :
    defaultAt s 0 = s.cfg.magic := by
  obtain ⟨decoderType, version, e⟩ := h.2.2.2.2 hi
  rw [defaultAt, e, defaultImage_at _ _ _ (Nat.zero_le _)]
  rfl

end Sys2Proof.Machine
end

