-- ==== Sys2Proof/Laws/PerInstr.lean ====
section
/-!
SUPPORT. Statements made of every instruction, one lemma per constructor.
-/

namespace Sys2Proof.Laws

/-- Decoding the encoding of an instruction gives it back, with every operand (R60, R62). -/
def DecodesBack.Statement (i : Instr) : Prop := decode (encode i) = .instr i

/-- The rows' lookup of a format's opcode, with the fields of an arbitrary `arg`. -/
theorem decodeParts_formats (a : Arg) :
    decodeParts 0x20 a =
      .instr (.btnAttach (argField a 24 8) (argField a 8 16) (argBit a 1) (argBit a 0)) ∧
    decodeParts 0x32 a =
      .instr (.flSingle (argField a 24 8) (argField a 16 8) (argField a 8 8) (argField a 0 8)) ∧
    decodeParts 0x33 a =
      .instr (.flCont (argField a 24 8) (argField a 16 8) (argField a 8 8) (argField a 0 8)) ∧
    decodeParts 0x40 a = .instr (.cvsInit (argField a 8 8) (argField a 0 8)) ∧
    decodeParts 0x43 a = .instr (.cvsRead (indexField a)) ∧
    decodeParts 0x44 a = .instr (.cvsWrite (indexField a) (valueField a)) :=
  ⟨rfl, rfl, rfl, rfl, rfl, rfl⟩

theorem DecodesBack.sysNop : DecodesBack.Statement (.sysNop) := by
  simp only [DecodesBack.Statement, encode, decode_assemble]
  rfl

theorem DecodesBack.sysTick : DecodesBack.Statement (.sysTick) := by
  simp only [DecodesBack.Statement, encode, decode_assemble]
  rfl

theorem DecodesBack.tmrSettime (duration : BitVec 32) :
    DecodesBack.Statement (.tmrSettime duration) := by
  simp only [DecodesBack.Statement, encode, decode_assemble]
  rfl

theorem DecodesBack.tmrExpired : DecodesBack.Statement (.tmrExpired) := by
  simp only [DecodesBack.Statement, encode, decode_assemble]
  rfl

theorem DecodesBack.tmrRunning : DecodesBack.Statement (.tmrRunning) := by
  simp only [DecodesBack.Statement, encode, decode_assemble]
  rfl

theorem DecodesBack.tmrStop : DecodesBack.Statement (.tmrStop) := by
  simp only [DecodesBack.Statement, encode, decode_assemble]
  rfl

theorem DecodesBack.tmrStart : DecodesBack.Statement (.tmrStart) := by
  simp only [DecodesBack.Statement, encode, decode_assemble]
  rfl

theorem DecodesBack.tmrRestart : DecodesBack.Statement (.tmrRestart) := by
  simp only [DecodesBack.Statement, encode, decode_assemble]
  rfl

theorem DecodesBack.btnAttach (pin : Byte) (debounceTime : BitVec 16) (pullup : Bool) (invert : Bool) :
    DecodesBack.Statement (.btnAttach pin debounceTime pullup invert) := by
  have h := attachArg_fields pin debounceTime pullup invert
  simp only [DecodesBack.Statement, encode, decode_assemble]
  rw [(decodeParts_formats (attachArg pin debounceTime pullup invert)).1]
  simp [h]

theorem DecodesBack.btnRead : DecodesBack.Statement (.btnRead) := by
  simp only [DecodesBack.Statement, encode, decode_assemble]
  rfl

theorem DecodesBack.btnIspressed : DecodesBack.Statement (.btnIspressed) := by
  simp only [DecodesBack.Statement, encode, decode_assemble]
  rfl

theorem DecodesBack.btnIsreleased : DecodesBack.Statement (.btnIsreleased) := by
  simp only [DecodesBack.Statement, encode, decode_assemble]
  rfl

theorem DecodesBack.btnWaspressed : DecodesBack.Statement (.btnWaspressed) := by
  simp only [DecodesBack.Statement, encode, decode_assemble]
  rfl

theorem DecodesBack.btnWasreleased : DecodesBack.Statement (.btnWasreleased) := by
  simp only [DecodesBack.Statement, encode, decode_assemble]
  rfl

theorem DecodesBack.btnPressedfor (ms : BitVec 32) : DecodesBack.Statement (.btnPressedfor ms) := by
  simp only [DecodesBack.Statement, encode, decode_assemble]
  rfl

theorem DecodesBack.btnReleasedfor (ms : BitVec 32) :
    DecodesBack.Statement (.btnReleasedfor ms) := by
  simp only [DecodesBack.Statement, encode, decode_assemble]
  rfl

theorem DecodesBack.btnTglread : DecodesBack.Statement (.btnTglread) := by
  simp only [DecodesBack.Statement, encode, decode_assemble]
  rfl

theorem DecodesBack.flOn : DecodesBack.Statement (.flOn) := by
  simp only [DecodesBack.Statement, encode, decode_assemble]
  rfl

theorem DecodesBack.flOff : DecodesBack.Statement (.flOff) := by
  simp only [DecodesBack.Statement, encode, decode_assemble]
  rfl

theorem DecodesBack.flSingle (on : Byte) (off : Byte) (count : Byte) (pause : Byte) :
    DecodesBack.Statement (.flSingle on off count pause) := by
  have h := patternArg_fields on off count pause
  simp only [DecodesBack.Statement, encode, decode_assemble]
  rw [(decodeParts_formats (patternArg on off count pause)).2.1]
  simp [h]

theorem DecodesBack.flCont (on : Byte) (off : Byte) (count : Byte) (pause : Byte) :
    DecodesBack.Statement (.flCont on off count pause) := by
  have h := patternArg_fields on off count pause
  simp only [DecodesBack.Statement, encode, decode_assemble]
  rw [(decodeParts_formats (patternArg on off count pause)).2.2.1]
  simp [h]

theorem DecodesBack.flUpdate : DecodesBack.Statement (.flUpdate) := by
  simp only [DecodesBack.Statement, encode, decode_assemble]
  rfl

theorem DecodesBack.cvsInit (decoderType : Byte) (version : Byte) :
    DecodesBack.Statement (.cvsInit decoderType version) := by
  have h := initArg_fields decoderType version
  simp only [DecodesBack.Statement, encode, decode_assemble]
  rw [(decodeParts_formats (place 8 decoderType ||| place 0 version)).2.2.2.1]
  simp [h]

theorem DecodesBack.cvsNotinit : DecodesBack.Statement (.cvsNotinit) := by
  simp only [DecodesBack.Statement, encode, decode_assemble]
  rfl

theorem DecodesBack.cvsSetdef : DecodesBack.Statement (.cvsSetdef) := by
  simp only [DecodesBack.Statement, encode, decode_assemble]
  rfl

theorem DecodesBack.cvsRead (index : BitVec 16) : DecodesBack.Statement (.cvsRead index) := by
  simp only [DecodesBack.Statement, encode, decode_assemble]
  rw [(decodeParts_formats (storeArg index 0)).2.2.2.2.1]
  rw [(storeArg_fields index 0).1]

theorem DecodesBack.cvsWrite (index : BitVec 16) (value : Byte) :
    DecodesBack.Statement (.cvsWrite index value) := by
  have h := storeArg_fields index value
  simp only [DecodesBack.Statement, encode, decode_assemble]
  rw [(decodeParts_formats (storeArg index value)).2.2.2.2.2]
  simp [h]

theorem DecodesBack.cvsAddrnotset : DecodesBack.Statement (.cvsAddrnotset) := by
  simp only [DecodesBack.Statement, encode, decode_assemble]
  rfl

theorem DecodesBack.cvsStoredaddr : DecodesBack.Statement (.cvsStoredaddr) := by
  simp only [DecodesBack.Statement, encode, decode_assemble]
  rfl

theorem DecodesBack.cvVfySm (cvNumber : BitVec 16) (value : Byte) :
    DecodesBack.Statement (.cvVfySm cvNumber value) := by
  have h := cvArg_fields cvNumber value
  have key : ∀ a, decodeParts 0x54 a =
      .instr (.cvVfySm (cvNumberField a) (valueField a)) := fun _ => rfl
  simp only [DecodesBack.Statement, encode, decode_assemble, key]
  simp [h]

theorem DecodesBack.cvVfyPom (cvNumber : BitVec 16) (value : Byte) :
    DecodesBack.Statement (.cvVfyPom cvNumber value) := by
  have h := cvArg_fields cvNumber value
  have key : ∀ a, decodeParts 0x56 a =
      .instr (.cvVfyPom (cvNumberField a) (valueField a)) := fun _ => rfl
  simp only [DecodesBack.Statement, encode, decode_assemble, key]
  simp [h]

theorem DecodesBack.cvWrSm (cvNumber : BitVec 16) (value : Byte) :
    DecodesBack.Statement (.cvWrSm cvNumber value) := by
  have h := cvArg_fields cvNumber value
  have key : ∀ a, decodeParts 0x5C a =
      .instr (.cvWrSm (cvNumberField a) (valueField a)) := fun _ => rfl
  simp only [DecodesBack.Statement, encode, decode_assemble, key]
  simp [h]

theorem DecodesBack.cvWrPom (cvNumber : BitVec 16) (value : Byte) :
    DecodesBack.Statement (.cvWrPom cvNumber value) := by
  have h := cvArg_fields cvNumber value
  have key : ∀ a, decodeParts 0x5E a =
      .instr (.cvWrPom (cvNumberField a) (valueField a)) := fun _ => rfl
  simp only [DecodesBack.Statement, encode, decode_assemble, key]
  simp [h]

theorem DecodesBack.cvBitvSm (cvNumber : BitVec 16) (bitPos : BitVec 3) (bitVal : Bool) :
    DecodesBack.Statement (.cvBitvSm cvNumber bitPos bitVal) := by
  have h := bitArg_fields cvNumber bitPos bitVal false
  have key : ∀ a, decodeParts 0x58 a =
      .instr (.cvBitvSm (cvNumberField a) (bitPosField a) (bitValField a)) := fun _ => rfl
  simp only [DecodesBack.Statement, encode, decode_assemble, key]
  simp [h]

theorem DecodesBack.cvBitwSm (cvNumber : BitVec 16) (bitPos : BitVec 3) (bitVal : Bool) :
    DecodesBack.Statement (.cvBitwSm cvNumber bitPos bitVal) := by
  have h := bitArg_fields cvNumber bitPos bitVal true
  have key : ∀ a, decodeParts 0x59 a =
      .instr (.cvBitwSm (cvNumberField a) (bitPosField a) (bitValField a)) := fun _ => rfl
  simp only [DecodesBack.Statement, encode, decode_assemble, key]
  simp [h]

theorem DecodesBack.cvBitPom (cvNumber : BitVec 16) (bitPos : BitVec 3) (bitVal : Bool) (writeBit : Bool) :
    DecodesBack.Statement (.cvBitPom cvNumber bitPos bitVal writeBit) := by
  have h := bitArg_fields cvNumber bitPos bitVal writeBit
  have key : ∀ k a, decodeParts (opcodeWithBits 0x5A false k) a =
      .instr (.cvBitPom (cvNumberField a) (bitPosField a) (bitValField a) k) := by
    intro k a; cases k <;> rfl
  simp only [DecodesBack.Statement, encode, decode_assemble, key]
  simp [h]

theorem DecodesBack.cvRsvd (cvNumber : BitVec 16) (value : Byte) :
    DecodesBack.Statement (.cvRsvd cvNumber value) := by
  have h := cvArg_fields cvNumber value
  have key : ∀ a, decodeParts 0x50 a =
      .instr (.cvRsvd (cvNumberField a) (valueField a)) := fun _ => rfl
  simp only [DecodesBack.Statement, encode, decode_assemble, key]
  simp [h]

theorem DecodesBack.acc (address : BitVec 11) (isMine : Bool) (isBroadcast : Bool) :
    DecodesBack.Statement (.acc address isMine isBroadcast) := by
  have key : ∀ m b a, decodeParts (opcodeWithBits 0x60 m b) a =
      .instr (.acc (addressField a) m b) := by
    intro m b a; cases m <;> cases b <;> rfl
  simp only [DecodesBack.Statement, encode, decode_assemble, key, addressArg_field]

end Sys2Proof.Laws
end

