-- ==== Sys2Proof/Tests/Slice0.lean ====
section
/-!
SUPPORT. Tests of the model on fixed values. Expected results come from the encodings of
spec/30_encoding.md and from the vectors of spec/95_test_vectors.md, named in the comments (their
numbers are the spec's own, e.g. TMR-4); none is the model's own answer.
-/

namespace Sys2Proof.Tests

open Sys2Proof.Machine

/-! ### Helpers: small states and what one operation shows of its result -/

/-- One value of the next state, `none` where the operation stopped. -/
def after {α : Type} (f : State → α) : Result → Option α
  | .next t => some (f t)
  | .fault _ => none
  | .refused _ => none

/-- The refusal, `none` where there is none. -/
def why : Result → Option Refusal
  | .next _ => none
  | .fault _ => none
  | .refused r => some r

/-- The word `w` at the inputs `now`, `raw`. -/
def at' (w : OpWord) (now : Nat) (raw : Bool) (s : State) : Result := issue ⟨w, now, raw⟩ s

/-- The machine at reset (REF). -/
def fresh : State := State.reset

/-- Booted with the given table: `inited`, `attached`, window 25 ms, everything else at reset. -/
def ready (table : Memory) : State :=
  { State.resetWith Params.ref table with
    inited := true, btn := { Button.reset with attached := true, debounce := 25 } }

/-- The bytes of the REF image that a test reads, over a table whose other indices are erased. -/
def refBytes : Memory := [(0, 0x55), (1, 0x01), (7, 0x10), (8, 0x0D), (9, 0x80), (29, 0x80)]

/-- Parameters with the smallest table that holds the twelve named indices: short factory resets. -/
def smallParams : Params :=
  { Params.ref with
    n := 12, idxAddrLow := 1, idxAddrHigh := 2, idxVersion := 3, idxVid := 4, idxConfig := 5
    idxLongHigh := 6, idxLongLow := 7, idxCmdStation := 8, idxShortcut := 9, idxDiag := 10
    idxRestart := 11, idxSearch := 12, imageRows := [⟨none, none, 4, 0x0D⟩] }

/-- Booted at the small parameters, with a factory image in `defaults`. -/
def readySmall : State :=
  { State.resetWith smallParams [(0, 0x55)] with
    inited := true, defaults := defaultImage smallParams 0 0x10
    btn := { Button.reset with attached := true, debounce := 25 } }

theorem test_small_store_consistent : StoreOk readySmall :=
  ⟨by decide, by decide, by decide, by decide, fun _ => ⟨0, 0x10, rfl⟩⟩

theorem test_small_parameters_legal : smallParams.Legal := by decide

/-! ### Well-formedness: each check refuses an ill-formed term -/

theorem test_wf_single_on_zero :
    Instr.wellFormed Params.ref (.flSingle 0 3 2 1) = false := by decide

theorem test_wf_single_count_zero :
    Instr.wellFormed Params.ref (.flSingle 1 0 0 1) = false := by decide

theorem test_wf_single_off_zero_between_flashes :
    Instr.wellFormed Params.ref (.flSingle 1 0 2 0) = false := by decide

theorem test_wf_single_unused_zeros : Instr.wellFormed Params.ref (.flSingle 1 0 1 0) = true := by
  decide

theorem test_wf_cont_pause_zero :
    Instr.wellFormed Params.ref (.flCont 1 2 2 0) = false := by decide

theorem test_wf_read_index : Instr.wellFormed Params.ref (.cvsRead 64) = false := by decide

theorem test_wf_write_index :
    Instr.wellFormed Params.ref (.cvsWrite 64 0) = false ∧
    Instr.wellFormed Params.ref (.cvsWrite 63 0) = true := by decide

/-- The masks and patterns of spec/opcode_table.json, in its order, at their eight opcode bits. -/
theorem test_rows :
    opcodeRows.map (fun r => (r.mask.toNat, r.pattern.toNat)) =
      [(0xFF, 0x00), (0xFF, 0x01), (0xFF, 0x10), (0xFF, 0x11), (0xFF, 0x12), (0xFF, 0x13),
       (0xFF, 0x14), (0xFF, 0x15), (0xFF, 0x20), (0xFF, 0x21), (0xFF, 0x22), (0xFF, 0x23),
       (0xFF, 0x24), (0xFF, 0x25), (0xFF, 0x26), (0xFF, 0x27), (0xFF, 0x28), (0xFF, 0x30),
       (0xFF, 0x31), (0xFF, 0x32), (0xFF, 0x33), (0xFF, 0x34), (0xFF, 0x40), (0xFF, 0x41),
       (0xFF, 0x42), (0xFF, 0x43), (0xFF, 0x44), (0xFF, 0x45), (0xFF, 0x46), (0xFE, 0x54),
       (0xFE, 0x56), (0xFE, 0x5C), (0xFE, 0x5E), (0xFF, 0x58), (0xFF, 0x59), (0xFE, 0x5A),
       (0xFC, 0x50), (0xFC, 0x60)] := by decide

/-- The numeric codes of R20 and R21. -/
theorem test_codes :
    [FlashMode.alwaysOff, .alwaysOn, .singleBurst, .continuousBursts].map FlashMode.code =
      [0, 1, 2, 3] ∧
    [Session.idle, .armed, .waiting, .captured].map Session.code = [0, 1, 2, 3] := by decide

/-! ### Decoding: one word for each row, written out from R47 to R55 -/

/-- R48 to R50: unit, fn, then the 32 bits of `arg`. -/
theorem test_decode_sys_tmr :
    decode 0b0000_0000_11011110_10101101_10111110_11101111 = .instr .sysNop ∧
    decode 0b0000_0001_00000000_00000000_00000000_00000000 = .instr .sysTick ∧
    decode 0b0001_0000_00000000_00000000_00000000_01100100 = .instr (.tmrSettime 100) ∧
    decode 0b0001_0001_00000000_00000000_00000000_00000000 = .instr .tmrExpired ∧
    decode 0b0001_0010_00000000_00000000_00000000_00000000 = .instr .tmrRunning ∧
    decode 0b0001_0011_00000000_00000000_00000000_00000000 = .instr .tmrStop ∧
    decode 0b0001_0100_00000000_00000000_00000000_00000000 = .instr .tmrStart ∧
    decode 0b0001_0101_00000000_00000000_00000000_00000000 = .instr .tmrRestart := by
  refine ⟨?_, ?_, ?_, ?_, ?_, ?_, ?_, ?_⟩ <;> decide

/-- R51: `BTN.ATTACH` packs pin, debounceTime, six ignored bits, pullup, invert. -/
theorem test_decode_btn :
    decode 0b0010_0000_00000101_00000000_00001010_111111_1_1 = .instr (.btnAttach 5 10 true true) ∧
    decode 0b0010_0000_10000000_00000001_00000000_000000_1_0 =
      .instr (.btnAttach 128 256 true false) ∧
    decode 0b0010_0001_00000000_00000000_00000000_00000000 = .instr .btnRead ∧
    decode 0b0010_0010_00000000_00000000_00000000_00000000 = .instr .btnIspressed ∧
    decode 0b0010_0011_00000000_00000000_00000000_00000000 = .instr .btnIsreleased ∧
    decode 0b0010_0100_00000000_00000000_00000000_00000000 = .instr .btnWaspressed ∧
    decode 0b0010_0101_00000000_00000000_00000000_00000000 = .instr .btnWasreleased ∧
    decode 0b0010_0110_00000000_00000000_00010011_10001000 = .instr (.btnPressedfor 5000) ∧
    decode 0b0010_0111_10000000_00000000_00000000_00000001 =
      .instr (.btnReleasedfor 0x80000001) ∧
    decode 0b0010_1000_00000000_00000000_00000000_00000000 = .instr .btnTglread := by
  refine ⟨?_, ?_, ?_, ?_, ?_, ?_, ?_, ?_, ?_, ?_⟩ <;> decide

/-- R52: `on`, `off`, `count`, `pause` from the high byte down. -/
theorem test_decode_fl :
    decode 0b0011_0000_00000000_00000000_00000000_00000000 = .instr .flOn ∧
    decode 0b0011_0001_00000000_00000000_00000000_00000000 = .instr .flOff ∧
    decode 0b0011_0010_00000010_00000011_00000100_00000001 = .instr (.flSingle 2 3 4 1) ∧
    decode 0b0011_0011_00000001_00000010_00000011_00000100 = .instr (.flCont 1 2 3 4) ∧
    decode 0b0011_0100_00000000_00000000_00000000_00000000 = .instr .flUpdate := by
  refine ⟨?_, ?_, ?_, ?_, ?_⟩ <;> decide

/-- R53: `decoderType` over `version`; `index` in the middle 16 bits, `value` in the low 8. -/
theorem test_decode_cvs :
    decode 0b0100_0000_00000000_00000000_00000010_00010000 = .instr (.cvsInit 2 0x10) ∧
    decode 0b0100_0001_00000000_00000000_00000000_00000000 = .instr .cvsNotinit ∧
    decode 0b0100_0010_00000000_00000000_00000000_00000000 = .instr .cvsSetdef ∧
    decode 0b0100_0011_11111111_00000000_00001001_11111111 = .instr (.cvsRead 9) ∧
    decode 0b0100_0100_11111111_00000001_00001001_10000000 = .instr (.cvsWrite 0x109 0x80) ∧
    decode 0b0100_0101_00000000_00000000_00000000_00000000 = .instr .cvsAddrnotset ∧
    decode 0b0100_0110_00000000_00000000_00000000_00000000 = .instr .cvsStoredaddr := by
  refine ⟨?_, ?_, ?_, ?_, ?_, ?_, ?_⟩ <;> decide

/-- R54: `CC`, `mode`, the ignored or `writeBit` low bit; `cvNumber` in the high half of `arg`. -/
theorem test_decode_cv :
    decode 0b0101_01_0_0_0000000100001001_11111111_10000000 = .instr (.cvVfySm 0x109 0x80) ∧
    decode 0b0101_01_1_1_0000000000001001_00000000_10000000 = .instr (.cvVfyPom 9 0x80) ∧
    decode 0b0101_11_0_1_0000000000001000_00000000_00001101 = .instr (.cvWrSm 8 0x0D) ∧
    decode 0b0101_11_1_0_0000000000001000_00000000_00001101 = .instr (.cvWrPom 8 0x0D) ∧
    decode 0b0101_10_0_0_0000000000011101_00000000_1110_1_111 = .instr (.cvBitvSm 29 7 true) ∧
    decode 0b0101_10_0_1_0000000000011101_00000000_1111_0_110 = .instr (.cvBitwSm 29 6 false) ∧
    decode 0b0101_10_1_0_0000000000011101_00000000_0000_1_001 =
      .instr (.cvBitPom 29 1 true false) ∧
    decode 0b0101_10_1_1_0000000000011101_00000000_0000_0_100 =
      .instr (.cvBitPom 29 4 false true) ∧
    decode 0b0101_00_1_1_0000000000001001_00000000_10000000 = .instr (.cvRsvd 9 0x80) := by
  refine ⟨?_, ?_, ?_, ?_, ?_, ?_, ?_, ?_, ?_⟩ <;> decide

/-- R55: `isMine` over `isBroadcast` in `fn`, an 11-bit address. -/
theorem test_decode_acc :
    decode 0b0110_0001_000000000000000000000_00000100101 = .instr (.acc 37 false true) ∧
    decode 0b0110_0010_111111111111111111111_11111111111 = .instr (.acc 2047 true false) := by
  refine ⟨?_, ?_⟩ <;> decide

/-- R57: one word from each reserved range, and the name of the range. -/
theorem test_decode_reserved :
    decode 0x0200000000 = .reserved .sysFn ∧ decode 0x0F00000000 = .reserved .sysFn ∧
    decode 0x1600000000 = .reserved .tmrFn ∧ decode 0x2900000000 = .reserved .btnFn ∧
    decode 0x3500000000 = .reserved .flFn ∧ decode 0x4700000000 = .reserved .cvsFn ∧
    decode 0x6400000025 = .reserved .accFn ∧ decode 0x7000000000 = .reserved .unit ∧
    decode 0xFF12345678 = .reserved .unit := by
  refine ⟨?_, ?_, ?_, ?_, ?_, ?_, ?_, ?_, ?_⟩ <;> decide

/-- R61, R60: the assembler's words for the examples of the spec's vectors. -/
theorem test_encode_vectors :
    encode (.cvBitwSm 29 6 true) = 0x59001D00FE ∧ encode (.cvBitvSm 29 7 true) = 0x58001D00EF ∧
    encode (.btnAttach 5 10 true true) = 0x2005000A03 ∧ encode (.acc 37 false true) = 0x6100000025 ∧
    encode (.cvsWrite 9 0x80) = 0x4400000980 ∧ encode (flFast Params.ref) = 0x3305050105 ∧
    encode (flSearch Params.ref) = 0x3319190119 ∧
    encode (bootAttach Params.ref) = 0x2000001900 := by
  refine ⟨?_, ?_, ?_, ?_, ?_, ?_, ?_, ?_⟩ <;> decide

/-- The host's two entries: a table word is decoded as it stands, and the next step runs it. -/
theorem test_table_word :
    decodeTableWord 40 0x1000000064 = some (.tmrSettime 100) ∧
    decodeTableWord 40 0x7000000000 = none ∧
    after State.tu (step (fresh.withFetchWord 40 0x1000000064)) = some ⟨true, 100, 0⟩ := by
  refine ⟨?_, ?_, ?_⟩ <;> decide

/-! ### Operations, one step each -/

/-- SYS-3: an idle tick reads the button and nothing else. -/
theorem test_tick_idle :
    after id (at' 0x0100000000 20 false (ready refBytes)) = some { ready refBytes with now := 20 } := by
  decide

/-- R61 and R6: `BOOT` passes `DECODER_TYPE` and `VERSION`; the version stands at its index (P1). -/
theorem test_boot_passes_the_tags :
    let p := { smallParams with version := 0x42, imageRows := [⟨some 7, none, 9, 0x99⟩] }
    after (fun t => (memRead t 0, memRead t 3, memRead t 9)) (boot (State.resetWith p [])) =
      some (0x55, 0x42, 0x00) ∧
    after (fun t => memRead t 9) (boot (State.resetWith { p with decoderType := 7 } [])) =
      some 0x99 := by decide

/-- SYS-4. -/
theorem test_tick_not_booted : why (at' 0x0100000000 0 false fresh) = some .notBooted := by decide

/-- SYS-6, first tick: the press arms. -/
theorem test_tick_press :
    after (fun t => (t.sess, t.fl.led, t.btn.lastChangeTime))
      (at' 0x0100000000 40 true (ready refBytes)) = some (.armed, true, 40) := by decide

/-- P4, step 5: the hold reaches 5000 ms, at the small parameters. -/
theorem test_tick_long_hold :
    after (fun t => (t.events, t.sess, memRead t 0, memRead t 1, memRead t 2, memRead t 12))
      (at' 0x0100000000 5040 true
        { readySmall with
          sess := .armed
          btn := { readySmall.btn with currentState := true, lastChangeTime := 40 } }) =
      some ([.reboot], .idle, 0x55, 0x01, 0x80, 0x00) := by decide

/-- P3, step 12: 110 ms after the capture the settle timer has fired. -/
theorem test_tick_settled :
    after (fun t => (t.events, t.inited, t.ts, memRead t 1))
      (at' 0x0100000000 640 false
        { ready [(1, 0x26)] with sess := .captured, ts := ⟨true, 100, 530⟩ }) =
      some ([.reboot], false, ⟨false, 0, 0⟩, 0x26) := by decide

/-- TMR-4, and TMR-16: a duration of 0 disarms. -/
theorem test_tmr_settime :
    after State.tu (at' 0x1000000064 1000 false fresh) = some ⟨true, 100, 1000⟩ ∧
    after State.tu (at' 0x1000000000 3010 false { fresh with tu := ⟨true, 100, 3000⟩ }) =
      some ⟨false, 0, 3000⟩ := by decide

/-- TMR-21 and TMR-20: across the wrap of the clock. -/
theorem test_tmr_expired_wrap :
    after (fun t => (t.rsp, t.tu.armed))
      (at' 0x1100000000 0x54 false { fresh with tu := ⟨true, 100, 0xFFFFFFF0⟩ }) =
      some (1, false) ∧
    after (fun t => (t.rsp, t.tu.armed))
      (at' 0x1100000000 0x53 false { fresh with tu := ⟨true, 100, 0xFFFFFFF0⟩ }) =
      some (0, true) := by decide

/-- TMR-7 and TMR-8: elapsed is no longer running, though still armed. -/
theorem test_tmr_running :
    after (fun t => (t.rsp, t.tu.armed))
      (at' 0x1200000000 1099 false { fresh with tu := ⟨true, 100, 1000⟩ }) = some (1, true) ∧
    after (fun t => (t.rsp, t.tu.armed))
      (at' 0x1200000000 1100 false { fresh with tu := ⟨true, 100, 1000⟩ }) = some (0, true) := by
  decide

/-- TMR-13, TMR-11, TMR-15. -/
theorem test_tmr_stop_start_restart :
    after State.tu (at' 0x1300000000 2099 false { fresh with tu := ⟨true, 100, 2000⟩ }) =
      some ⟨false, 100, 2000⟩ ∧
    after State.tu (at' 0x1400000000 2000 false { fresh with tu := ⟨false, 100, 1000⟩ }) =
      some ⟨true, 100, 2000⟩ ∧
    after State.tu (at' 0x1500000000 3000 false { fresh with tu := ⟨false, 100, 2000⟩ }) =
      some ⟨true, 100, 3000⟩ := by decide

/-- Section 2.3.4: `BTN.ATTACH` with an inverted input, and a read of a detached button. -/
theorem test_btn_attach :
    after (fun t => (t.btn.rawPin, t.btn.debounce, t.btn.pullupEnabled, t.btn.currentState))
      (at' 0x2005000A03 100 true fresh) = some (5, 10, true, false) ∧
    why (at' 0x2100000000 0 true fresh) = some .buttonNotAttached := by decide

/-- BTN-3, and BTN-6: 24 ms after the change the sample is rejected. -/
theorem test_btn_read :
    after (fun t => (t.rsp, t.btn.changed, t.btn.lastChangeTime, t.btn.toggleState))
      (at' 0x2100000000 30 true (ready [])) = some (1, true, 30, true) ∧
    after (fun t => (t.rsp, t.btn.changed, t.btn.lastChangeTime))
      (at' 0x2100000000 54 false
        { ready [] with
          btn := { (ready []).btn with currentState := true, changed := true,
                                       lastChangeTime := 30 } }) = some (1, false, 30) := by decide

/-- After BTN-7: the queries on an accepted release. -/
theorem test_btn_queries :
    [(0x2200000000 : OpWord), 0x2300000000, 0x2400000000, 0x2500000000].map
      (fun w => after State.rsp (at' w 56 true
        { ready [] with btn := { (ready []).btn with previousState := true, changed := true,
                                                     lastChangeTime := 55 } })) =
      [some 0, some 1, some 0, some 1] := by decide

/-- BTN-11, BTN-12, BTN-13: the endpoint counts. -/
theorem test_btn_durations :
    (let s : State := { ready [] with
        btn := { (ready []).btn with currentState := true, lastChangeTime := 100 } }
     after State.rsp (at' 0x2600000014 119 false s) = some 0 ∧
     after State.rsp (at' 0x2600000014 120 false s) = some 1 ∧
     after State.rsp (at' 0x2700000000 120 false s) = some 0) := by decide

/-- Section 2.3.3: the press at 160 flips the toggle. -/
theorem test_btn_tglread :
    after (fun t => (t.rsp, t.btn.currentState)) (at' 0x2800000000 160 true
      { ready [] with btn := { (ready []).btn with lastChangeTime := 130 } }) =
      some (1, true) := by decide

/-- Section 2.4.3: `FL.ON` in a pattern keeps its counters; `FL.OFF` darkens. -/
theorem test_fl_on_off :
    (let s : State := { fresh with fl := ⟨1, 2, 2, 3, .continuousBursts, 2, 1, false, 1020⟩ }
     after State.fl (at' 0x3000000000 1030 false s) =
       some ⟨1, 2, 2, 3, .alwaysOn, 2, 1, true, 1020⟩ ∧
     after (fun t => (t.fl.mode, t.fl.led)) (at' 0x3100000000 1030 false s) =
       some (.alwaysOff, false)) := by decide

/-- Section 2.4.4: unused zero fields are allowed, a used one is refused. -/
theorem test_fl_single :
    after State.fl (at' 0x3201000100 7 false fresh) =
      some ⟨1, 0, 1, 0, .singleBurst, 1, 0, true, 7⟩ ∧
    why (at' 0x3201000200 7 false fresh) = some .flashFieldZero := by decide

theorem test_fl_cont :
    after State.fl (at' 0x3301020203 1000 false fresh) =
      some ⟨1, 2, 2, 3, .continuousBursts, 1, 0, true, 1000⟩ ∧
    why (at' 0x3301020200 0 false fresh) = some .flashFieldZero := by decide

/-- Section 2.4.3: 19 ms are too few, 20 end the burst. -/
theorem test_fl_update :
    after State.fl (at' 0x3400000000 19 false
        { fresh with fl := ⟨1, 1, 1, 1, .singleBurst, 1, 0, true, 0⟩ }) =
      some ⟨1, 1, 1, 1, .singleBurst, 1, 0, true, 0⟩ ∧
    after State.fl (at' 0x3400000000 20 false
        { fresh with fl := ⟨1, 1, 1, 1, .singleBurst, 1, 0, true, 0⟩ }) =
      some ⟨1, 1, 1, 1, .alwaysOff, 0, 1, false, 20⟩ := by decide

/-- CVS-6: the image at REF (R98), read at the indices it names and at one it does not. -/
theorem test_cvs_init :
    after (fun t => (t.inited, [0, 1, 7, 8, 9, 29, 3].map (defaultAt t)))
      (at' 0x4000000010 0 false fresh) =
      some (true, [0x55, 0x01, 0x10, 0x0D, 0x80, 0x80, 0x00]) := by decide

/-- CVS-1 and CVS-9. -/
theorem test_cvs_notinit :
    after State.rsp (at' 0x4100000000 0 false fresh) = some 1 ∧
    after State.rsp (at' 0x4100000000 0 false (ready refBytes)) = some 0 := by decide

/-- CVS-5 refuses; CVS-8 at the small parameters copies the image. -/
theorem test_cvs_setdef :
    why (at' 0x4200000000 0 false fresh) = some .setDefaultsBeforeInit ∧
    after (fun t => (memRead t 0, memRead t 3, memRead t 4, memRead t 13))
      (at' 0x4200000000 0 false { readySmall with table := [] }) =
      some (0x55, 0x10, 0x0D, 0xFF) := by decide

/-- CVS-2, CVS-16 and CVS-17: the highest index, and the one above it. -/
theorem test_cvs_read :
    after State.rsp (at' 0x4300000000 0 false fresh) = some 0xFF ∧
    after State.rsp (at' 0x4300003F00 0 false (ready [(63, 0x00)])) = some 0 ∧
    why (at' 0x4300004000 0 false fresh) = some .indexOutOfRange := by decide

/-- CVS-20: the store's own write is unfiltered; CVS-18. -/
theorem test_cvs_write :
    after (fun t => (memRead t 8, t.events)) (at' 0x440000080D 0 false (ready [])) =
      some (0x0D, []) ∧
    why (at' 0x44FFFF0000 0 false fresh) = some .indexOutOfRange := by decide

/-- S2, at the two sides of 0x80. -/
theorem test_cvs_addrnotset :
    after State.rsp (at' 0x4500000000 0 false (ready [(9, 0x80)])) = some 1 ∧
    after State.rsp (at' 0x4500000000 0 false (ready [(9, 0x7F)])) = some 0 := by decide

/-- AD-8, AD-12, AD-2, AD-20: one vector for each branch that is easy to get wrong. -/
theorem test_cvs_storedaddr :
    after State.rsp (at' 0x4600000000 0 false (ready [(1, 0x00), (9, 0x01), (29, 0x80)])) =
      some 63 ∧
    after State.rsp (at' 0x4600000000 0 false (ready [(1, 0x00), (9, 0x00), (29, 0x80)])) =
      some 0xFFFF ∧
    after State.rsp (at' 0x4600000000 0 false (ready [(1, 0x2A), (9, 0x03), (29, 0xC0)])) =
      some 810 ∧
    after State.rsp
      (at' 0x4600000000 0 false (ready [(9, 0x80), (17, 0xC4), (18, 0xD2), (29, 0x20)])) =
      some 0xFFFF := by decide

/-- AD-14, AD-15, AD-17: multifunction addresses. -/
theorem test_cvs_storedaddr_multifunction :
    after State.rsp (at' 0x4600000000 0 false (ready [(1, 0x83), (9, 0x00), (29, 0x00)])) =
      some 3 ∧
    after State.rsp (at' 0x4600000000 0 false (ready [(1, 0x00), (9, 0x00), (29, 0x00)])) =
      some 3 ∧
    after State.rsp
      (at' 0x4600000000 0 false (ready [(9, 0x00), (17, 0xC4), (18, 0xD2), (29, 0x20)])) =
      some 1234 := by decide

/-- CV-1, CV-2, CV-4: a match, a mismatch, and the marker, which is out of range. -/
theorem test_cv_vfy_sm :
    after State.events (at' 0x5400090080 50 false (ready refBytes)) = some [.ack] ∧
    after State.events (at' 0x5400090000 50 false (ready refBytes)) = some [] ∧
    after State.events (at' 0x5400000055 50 false (ready refBytes)) = some [] := by decide

/-- CV-8, and before the boot (section 2.6, end). -/
theorem test_cv_vfy_pom :
    after State.events (at' 0x5600090080 50 false (ready refBytes)) = some [] ∧
    why (at' 0x5400010001 50 false fresh) = some .notBooted := by decide

/-- CV-9, CV-13. -/
theorem test_cv_wr_sm :
    after (fun t => (t.events, memRead t 3)) (at' 0x5C0003002A 50 false (ready refBytes)) =
      some ([.ack], 0x2A) ∧
    after (fun t => (t.events, memRead t 7)) (at' 0x5C00070099 50 false (ready refBytes)) =
      some ([], 0x10) := by decide

/-- P2, step 5, at the small parameters: CV 4 is their vendor-ID CV. -/
theorem test_cv_wr_sm_factory_reset :
    after (fun t => (t.events, t.inited, t.btn.attached, memRead t 2))
      (at' 0x5C0004000D 1000 false readySmall) = some ([.ack, .reboot], false, false, 0x80) := by
  decide

/-- CV-10, CV-31. -/
theorem test_cv_wr_pom :
    after (fun t => (t.events, memRead t 4)) (at' 0x5E0004002B 50 false (ready refBytes)) =
      some ([], 0x2B) ∧
    after (fun t => (t.events, t.inited)) (at' 0x5E00190001 60 false (ready refBytes)) =
      some ([.reboot], false) := by decide

/-- P5, step 10: the search blink. -/
theorem test_cv_wr_pom_search :
    after (fun t => (t.fl, t.flashFlag, memRead t 23))
      (at' 0x5E00170001 200 false (ready refBytes)) =
      some (⟨25, 25, 1, 25, .continuousBursts, 25, 0, true, 200⟩, true, 0xFF) := by decide

/-- CV-18, CV-19, CV-20. -/
theorem test_cv_bitv_sm :
    [(0x58001D00EF : OpWord), 0x58001D00EE, 0x58001D00E6].map
      (fun w => after State.events (at' w 50 false (ready refBytes))) =
      [some [.ack], some [], some [.ack]] := by decide

/-- CV-21, and CV-25: the vendor-ID CV is no special case. -/
theorem test_cv_bitw_sm :
    after (fun t => (t.events, memRead t 29)) (at' 0x59001D00FE 50 false (ready refBytes)) =
      some ([.ack], 0xC0) ∧
    after (fun t => (t.events, memRead t 8)) (at' 0x59000800FA 50 false (ready refBytes)) =
      some ([.ack], 0x0D) := by decide

/-- CV-26, CV-27. -/
theorem test_cv_bit_pom :
    after (fun t => (t.events, t.table)) (at' 0x5B001D00FE 50 false (ready refBytes)) =
      some ([], refBytes) ∧
    after (fun t => (t.events, t.table)) (at' 0x5A001D00EE 50 false (ready refBytes)) =
      some ([], refBytes) := by decide

/-- CV-28 and section 2.8: dropped, in the reset state too. -/
theorem test_cv_rsvd :
    after (fun t => (t.events, t.table)) (at' 0x5000090080 50 false (ready refBytes)) =
      some ([], refBytes) ∧
    after State.rsp (at' 0x53FFFFFFFF 0 false fresh) = some 0 := by decide

/-- ACC-2 and ACC-4: the two address CVs, the settle timer, the session. -/
theorem test_acc_capture :
    after (fun t => (memRead t 1, memRead t 9, t.sess, t.ts))
      (at' 0x6200000025 90 false { ready refBytes with sess := .waiting }) =
      some (0x26, 0x00, .captured, ⟨true, 100, 90⟩) ∧
    after (fun t => (memRead t 1, memRead t 9))
      (at' 0x630000003F 90 false { ready refBytes with sess := .waiting }) =
      some (0x00, 0x01) := by decide

/-- ACC-1, ACC-16, ACC-19: not addressed, not waiting, not booted. -/
theorem test_acc_dropped :
    after (fun t => (t.table, t.sess))
      (at' 0x6000000025 90 false { ready refBytes with sess := .waiting }) =
      some (refBytes, .waiting) ∧
    after (fun t => (t.table, t.sess)) (at' 0x6100000025 10 false (ready refBytes)) =
      some (refBytes, .idle) ∧
    why (at' 0x6100000001 0 false fresh) = some .notBooted := by decide

/-- R164: power given back keeps the table and resets the rest; section 2.8: a reserved word. -/
theorem test_power_cycle_and_reserved :
    after (fun t => (t.table, t.inited, t.port))
      (step { ready refBytes with port := [.powerCycle] }) = some (refBytes, false, []) ∧
    after (fun t => (t.events, t.btn)) (at' 0x7000000000 100 true (ready refBytes)) =
      some ([], (ready refBytes).btn) := by decide

/-! ### Witnesses: the hypotheses of each obligation are met, clause by clause, at boundary values -/

theorem test_witness_EncodeDecodeKeepsEveryOperandBit :
    decode 0x59001D0056 = .instr (.cvBitwSm 29 6 false) ∧
    decode 0x5B001D0056 = .instr (.cvBitPom 29 6 false true) ∧
    decode 0x62FFFFF825 = .instr (.acc 37 true false) := by decide

/-- Two different words: the ignored `arg[15:8]` of a `CV` command. -/
theorem test_witness_IgnoredBitsDoNotChangeDecoding :
    opcodeOf 0x5C0009FF00 = opcodeOf 0x5C00090000 ∧
    argOf 0x5C0009FF00 &&& operandMask (opcodeOf 0x5C0009FF00) =
      argOf 0x5C00090000 &&& operandMask (opcodeOf 0x5C0009FF00) ∧
    (0x5C0009FF00 : OpWord) ≠ 0x5C00090000 := by decide

/-- The first reserved opcode of each unit and the last word of all, then the last operation of each
unit: their `unit` and `fn` nibbles. -/
theorem test_witness_ReservedWordsAreDropped :
    [(0x0200000000 : OpWord), 0x1600000000, 0x2900000000, 0x3500000000, 0x4700000000, 0x5300000000,
      0x6400000000, 0x7000000000, 0xFFFFFFFFFF].map
        (fun w => ((opcodeOf w).toNat / 16, (opcodeOf w).toNat % 16)) =
      [(0, 2), (1, 6), (2, 9), (3, 5), (4, 7), (5, 3), (6, 4), (7, 0), (15, 15)] ∧
    [(0x0100000000 : OpWord), 0x1500000000, 0x2800000000, 0x3400000000, 0x4600000000, 0x5400000000,
      0x6300000000].map (fun w => ((opcodeOf w).toNat / 16, (opcodeOf w).toNat % 16)) =
      [(0, 1), (1, 5), (2, 8), (3, 4), (4, 6), (5, 4), (6, 3)] := by decide

/-- A state with one operation, `TMR.SETTIME 100`, at its port. -/
def oneRequest : State := { fresh with port := [.operation ⟨0x1000000064, 1000, false⟩] }

theorem test_witness_StepRunsTheDecodedInstruction :
    oneRequest.port = .operation ⟨0x1000000064, 1000, false⟩ :: [] ∧
    decode 0x1000000064 = .instr (.tmrSettime 100) := by decide

theorem test_witness_PowerCycleGivesTheResetState :
    ({ ready refBytes with port := [.powerCycle] } : State).port = .powerCycle :: [] := by decide

theorem test_witness_EmptyPortStepsAsNop : fresh.port = [] := by decide

theorem test_witness_ResetStateIsConsistent :
    Params.ref.Legal ∧ Memory.wf refBytes = true ∧ Memory.within Params.ref.n refBytes = true := by
  decide

/-- A captured session with its blink running: every part of the invariant is at work. -/
def busy : State :=
  { readySmall with
    sess := .captured, ts := ⟨true, 100, 530⟩, now := 545
    fl := ⟨5, 5, 1, 5, .continuousBursts, 4, 0, true, 540⟩
    port := [.operation ⟨0x0100000000, 560, false⟩] }

theorem test_witness_StepKeepsTheStateConsistent : StateOk busy ∧ ∃ t, step busy = .next t := by
  refine ⟨⟨by decide, ?_, ?_, ?_, ?_, ?_, ?_, ?_⟩, _, rfl⟩
  · exact test_small_store_consistent
  · unfold TimerOk; decide
  · unfold TimerOk; decide
  · unfold ButtonOk; decide
  · unfold FlashOk PatternOk; decide
  · unfold SessionOk; decide
  · unfold AnswerOk; decide

theorem test_witness_StepTakesOneStimulusAndKeepsParameters :
    ∃ t, step oneRequest = .next t := ⟨_, rfl⟩

/-- Each clause: detached, not booted (one of the two missing), not initialised, one above `N`, and
each way to put a 0 in a field the mode uses. -/
theorem test_witness_ImproperUseIsRefusedByName :
    fresh.btn.attached = false ∧
    (let s : State := { fresh with inited := true }; (s.inited && s.btn.attached) = false) ∧
    fresh.inited = false ∧ fresh.cfg.n < (64#16).toNat ∧
    (1 < (2#8).toNat ∧ (0#8).toNat = 0) := by decide

theorem test_witness_NopChangesNothing :
    opcodeOf 0x00DEADBEEF = 0x00 ∧ decode 0x7000000000 = .reserved .unit ∧
    decode 0x5300090080 = .instr (.cvRsvd 9 0x80) := by decide

/-- A booted machine at time 40 with the line high, its session as given. -/
def pressed (session : Session) : State :=
  { ready refBytes with sess := session, now := 40, raw := true }

/-- Both branches: the press edge, and no edge (line low). -/
theorem test_witness_TickIdleArmsOnAPressEdge :
    (let s := pressed .idle
     let b := readButton s.cfg s.now s.raw s.btn
     s.inited = true ∧ s.btn.attached = true ∧ s.sess = .idle ∧
       b.currentState = true ∧ b.changed = true) ∧
    (let s : State := { pressed .idle with raw := false }
     (readButton s.cfg s.now s.raw s.btn).currentState = false) := by decide

/-- Held since 40, at 5040: exactly the long hold. -/
theorem test_witness_TickArmedLongHoldResetsToFactory :
    (let s : State := { pressed .armed with
        now := 5040, btn := { (ready []).btn with currentState := true, lastChangeTime := 40 } }
     s.inited = true ∧ s.btn.attached = true ∧ s.sess = .armed ∧ Memory.wf s.table = true ∧
       (readButton s.cfg s.now s.raw s.btn).currentState = true ∧
       s.cfg.longHoldMs =
         clkSub s.cfg s.now (readButton s.cfg s.now s.raw s.btn).lastChangeTime) := by decide

/-- The release, and a hold one millisecond too short. -/
theorem test_witness_TickArmedReleaseStartsTheCaptureLoop :
    (let s : State := { pressed .armed with raw := false }
     s.inited = true ∧ s.btn.attached = true ∧ s.sess = .armed ∧ 0 < s.cfg.tickMs ∧
       (readButton s.cfg s.now s.raw s.btn).currentState = false) ∧
    (let s : State := { pressed .armed with
        now := 5039, btn := { (ready []).btn with currentState := true, lastChangeTime := 40 } }
     let b := readButton s.cfg s.now s.raw s.btn
     b.currentState = true ∧ clkSub s.cfg s.now b.lastChangeTime + 1 = s.cfg.longHoldMs) := by
  decide

/-- Both branches: the press edge, and no edge. -/
theorem test_witness_TickWaitingCancelsOnAPressEdge :
    (let s := pressed .waiting
     let b := readButton s.cfg s.now s.raw s.btn
     s.inited = true ∧ s.btn.attached = true ∧ s.sess = .waiting ∧
       b.currentState = true ∧ b.changed = true) ∧
    (let s : State := { pressed .waiting with raw := false }
     (readButton s.cfg s.now s.raw s.btn).changed = false) := by decide

/-- The settle delay exactly over, and one millisecond short. -/
theorem test_witness_TickCapturedRebootsAfterTheSettleDelay :
    (let s : State := { pressed .captured with now := 630, ts := ⟨true, 100, 530⟩ }
     s.inited = true ∧ s.btn.attached = true ∧ s.sess = .captured ∧
       s.ts.armed = true ∧ s.ts.duration = clkSub s.cfg s.now s.ts.startTime) ∧
    (let s : State := { pressed .captured with now := 629, ts := ⟨true, 100, 530⟩ }
     clkSub s.cfg s.now s.ts.startTime + 1 = s.ts.duration) := by decide

theorem test_witness_TickDoesNotReadTheTable :
    ∃ t, exec .sysTick (pressed .idle) = .next t := ⟨_, rfl⟩

/-- The three ways: the press edge, a capture, a rebooting write of either mode. -/
theorem test_witness_WaitingEndsInThreeWays :
    (pressed .waiting).sess = .waiting ∧
    after State.sess (exec .sysTick (pressed .waiting)) = some .idle ∧
    after State.sess (exec (.acc 37 true false) (pressed .waiting)) = some .captured ∧
    after State.sess (exec (.cvWrSm 25 1) (pressed .waiting)) = some .idle ∧
    after State.sess (exec (.cvWrPom 25 1) (pressed .waiting)) = some .idle := by decide

/-- A capture in each addressing mode, and each of the three conditions failing alone. -/
theorem test_witness_AccCapturesOrIsDropped :
    (opcodeOf 0x6300000000).toNat / 4 = 0b011000 ∧
    (let s := pressed .waiting
     let c := memRead s s.cfg.idxConfig
     s.inited = true ∧ s.btn.attached = true ∧ Memory.wf s.table = true ∧ s.sess = .waiting ∧
       c.getLsbD s.cfg.bitAcc.val = true ∧ c.getLsbD s.cfg.bitOut.val = false) ∧
    (let s : State := { pressed .waiting with table := [(29, 0xC0)] }
     (memRead s s.cfg.idxConfig).getLsbD s.cfg.bitOut.val = true) ∧
    (pressed .idle).sess ≠ .waiting ∧
    (let s : State := { pressed .waiting with table := [(29, 0x40)] }
     (memRead s s.cfg.idxConfig).getLsbD s.cfg.bitAcc.val = false) := by decide

theorem test_witness_SetTimeArmsOrDisarms :
    opcodeOf 0x1000000000 = 0x10 ∧
    0 < (1#32).toNat % 2 ^ fresh.cfg.clkBits ∧ (0#32).toNat % 2 ^ fresh.cfg.clkBits = 0 := by decide

/-- Elapsed exactly, and one millisecond before. -/
theorem test_witness_ExpiredFiresAndDisarms :
    opcodeOf 0x1100000000 = 0x11 ∧
    clkSub fresh.cfg 1100 1000 = 100 ∧ clkSub fresh.cfg 1099 1000 = 99 := by decide

theorem test_witness_RunningReportsArmedAndNotElapsed : opcodeOf 0x1200000000 = 0x12 := by decide

/-- Stopped after it has elapsed unreported, then a query and a poll, then either query. -/
theorem test_witness_StopDisarmsWithoutSignalling :
    (let s : State := { fresh with tu := ⟨true, 100, 7⟩, now := 500 }
     ∃ t u, exec .tmrStop s = .next t ∧
       runRequests [⟨0x1100000000, 501, false⟩, ⟨0x0000000000, 502, false⟩] t = .next u) ∧
    opcodeOf 0x1300000000 = 0x13 ∧ decode 0x0000000000 = .instr .sysNop ∧
    decode 0x1100000000 = .instr .tmrExpired ∧ decode 0x1200000000 = .instr .tmrRunning :=
  ⟨⟨_, _, rfl, rfl⟩, by decide⟩

/-- The largest duration the register holds, and 0. -/
theorem test_witness_StartAndRestartArmWithTheSetDuration :
    opcodeOf 0x1400000000 = 0x14 ∧ opcodeOf 0x1500000000 = 0x15 ∧
    (let s : State := { fresh with tu := ⟨false, 0xFFFFFFFF, 0⟩ }
     s.tu.duration < 2 ^ s.cfg.clkBits) ∧
    fresh.tu.duration = 0 := by decide

/-- TMR-21: elapsed exactly, with the wrap in between. -/
theorem test_witness_TimerAnswersByElapsedTimeAcrossTheWrap :
    (let s : State := { fresh with tu := ⟨true, 100, 0xFFFFFFF0⟩, now := 0x54 }
     0xFFFFFFF0 < 2 ^ s.cfg.clkBits ∧ 100 < 2 ^ s.cfg.clkBits ∧
       s.tu = ⟨true, 100, 0xFFFFFFF0⟩ ∧ s.now = (0xFFFFFFF0 + 100) % 2 ^ s.cfg.clkBits) := by decide

theorem test_witness_TimerFiresAtMostOncePerArming :
    (let s : State := { fresh with tu := ⟨true, 100, 1000⟩, now := 1100 }
     ∃ t u, exec .tmrExpired s = .next t ∧ t.rsp = 1 ∧
       runRequests [⟨0x1300000000, 1101, false⟩] t = .next u) ∧
    decode 0x1300000000 = .instr .tmrStop ∧ decode 0x1100000000 = .instr .tmrExpired :=
  ⟨⟨_, _, rfl, rfl, rfl⟩, by decide, by decide⟩

/-- An operation of the unit, and a reboot. -/
theorem test_witness_UserTimerChangesOnlyByTimerOperations :
    after State.tu (exec (.tmrSettime 100) fresh) = some ⟨true, 100, 0⟩ ∧
    after (fun t => (t.tu, t.events))
      (exec (.cvWrSm 25 1) { pressed .idle with tu := ⟨true, 100, 0⟩ }) =
      some (⟨false, 0, 0⟩, [.reboot]) := by decide

theorem test_witness_AttachConfiguresAndSamples : opcodeOf 0x2005000A03 = 0x20 := by decide

/-- Inside the window by one millisecond, and at its end: a change, and no change. -/
theorem test_witness_ReadFollowsTheDebounceRule :
    opcodeOf 0x2100000000 = 0x21 ∧ opcodeOf 0x2800000000 = 0x28 ∧
    (ready []).btn.attached = true ∧
    clkSub Params.ref 24 (ready []).btn.lastChangeTime + 1 = (ready []).btn.debounce.toNat ∧
    clkSub Params.ref 25 (ready []).btn.lastChangeTime = (ready []).btn.debounce.toNat := by decide

theorem test_witness_ButtonQueriesReportTheAcceptedState :
    opcodeOf 0x2200000000 = 0x22 ∧ opcodeOf 0x2300000000 = 0x23 ∧ opcodeOf 0x2400000000 = 0x24 ∧
    opcodeOf 0x2500000000 = 0x25 ∧ (ready []).btn.attached = true := by decide

theorem test_witness_DurationQueriesMeasureFromTheAcceptedChange :
    opcodeOf 0x2600001388 = 0x26 ∧ opcodeOf 0x2700000000 = 0x27 ∧
    (ready []).btn.attached = true := by decide

/-- Two reads of a bouncing line, the second at the last millisecond of the window. -/
theorem test_witness_ReadsInsideTheWindowAcceptNothing :
    (let s := ready []
     s.btn.attached = true ∧
       decode 0x2100000000 = .instr .btnRead ∧ decode 0x2800000000 = .instr .btnTglread ∧
       clkSub s.cfg (10 % 2 ^ s.cfg.clkBits) s.btn.lastChangeTime < s.btn.debounce.toNat ∧
       clkSub s.cfg (24 % 2 ^ s.cfg.clkBits) s.btn.lastChangeTime < s.btn.debounce.toNat) := by
  decide

/-- A read that accepts a press, reported, and the next read. -/
theorem test_witness_PressIsReportedByExactlyOneRead :
    (let s : State := { ready [] with now := 25, raw := true }
     ∃ t u t' u', exec .btnRead s = .next t ∧ exec .btnWaspressed t = .next u ∧ u.rsp = 1 ∧
       exec .btnRead { t with now := 26, raw := true } = .next t' ∧
       exec .btnWaspressed t' = .next u') := ⟨_, _, _, _, rfl, rfl, rfl, rfl, rfl⟩

theorem test_witness_SteadyRequestsForceTheIndicator :
    opcodeOf 0x3000000000 = 0x30 ∧ opcodeOf 0x3100000000 = 0x31 := by decide

/-- A single flash with `off` = 0, and a burst that uses every field. -/
theorem test_witness_ConfigureStartsThePattern :
    opcodeOf 0x3201000100 = 0x32 ∧ opcodeOf 0x3301020203 = 0x33 ∧
    (1 ≤ (1#8).toNat ∧ (1 < (1#8).toNat → 1 ≤ (0#8).toNat)) ∧
    (1 ≤ (255#8).toNat ∧ (1 < (255#8).toNat → 1 ≤ (1#8).toNat)) := by decide

/-- One state for each of the seven clauses, by the flash it holds, at a qualifying tick (at 20). -/
theorem test_witness_UpdateAdvancesOneTimeStep :
    opcodeOf 0x3400000000 = 0x34 ∧
    Flash.reset.mode = .alwaysOff ∧
    clkSub Params.ref 19 0 < Params.ref.tickMs ∧ Params.ref.tickMs ≤ clkSub Params.ref 20 0 ∧
    (2#8) - 1 ≠ 0 ∧ (1#8) - 1 = 0 ∧
    ((0#8) + 1).toNat < (2#8).toNat ∧ (2#8).toNat ≤ ((1#8) + 1).toNat ∧
    (after State.fl (exec .flUpdate { fresh with
        now := 20, fl := ⟨1, 2, 2, 3, .singleBurst, 1, 1, true, 0⟩ })).map Flash.mode =
      some .alwaysOff ∧
    (after State.fl (exec .flUpdate { fresh with
        now := 20, fl := ⟨1, 2, 2, 3, .continuousBursts, 1, 1, true, 0⟩ })).map
      Flash.ticksRemaining = some 3 ∧
    (after State.fl (exec .flUpdate { fresh with
        now := 20, fl := ⟨1, 2, 2, 3, .continuousBursts, 1, 2, false, 0⟩ })).map
      Flash.burstsSoFar = some 0 := by decide

/-- A burst of two, as in property S5, and a single flash with `off` = 0. -/
theorem test_witness_SingleBurstWaveform :
    fresh.cfg.tickMs < 2 ^ fresh.cfg.clkBits ∧
    (1 ≤ (2#8).toNat ∧ (1 < (2#8).toNat → 1 ≤ (3#8).toNat)) ∧
    (1 ≤ (1#8).toNat ∧ (1 < (1#8).toNat → 1 ≤ (0#8).toNat)) := by decide

theorem test_witness_ContinuousBurstsWaveform :
    fresh.cfg.tickMs < 2 ^ fresh.cfg.clkBits ∧
    (1 ≤ (2#8).toNat ∧ (1 < (2#8).toNat → 1 ≤ (2#8).toNat)) ∧ 1 ≤ (3#8).toNat := by decide

theorem test_witness_InitBuildsTheFactoryImage :
    opcodeOf 0x4000000010 = 0x40 ∧ fresh.cfg.Legal ∧
    ∃ t', exec (.cvsInit 0 0x10) fresh = .next t' := ⟨by decide, by decide, _, rfl⟩

/-- The highest index of the table, and the one above it. -/
theorem test_witness_SetDefaultsCopiesTheImage :
    opcodeOf 0x4200000000 = 0x42 ∧ readySmall.inited = true ∧
    Memory.wf readySmall.table = true ∧ 12 ≤ readySmall.cfg.n ∧ ¬ 13 ≤ readySmall.cfg.n := by decide

/-- The marker equal and different; the sentinel bit at 127 and 128; a consistent store. -/
theorem test_witness_MarkerAndSentinelQueries :
    (StoreOk readySmall ∧ readySmall.inited = true) ∧
    opcodeOf 0x4100000000 = 0x41 ∧ opcodeOf 0x4500000000 = 0x45 ∧
    memRead (ready refBytes) 0 = Params.ref.magic ∧ memRead fresh 0 ≠ Params.ref.magic ∧
    (memRead (ready [(9, 0x7F)]) 9).toNat = 127 ∧ (memRead (ready [(9, 0x80)]) 9).toNat = 128 := by
  exact ⟨⟨test_small_store_consistent, rfl⟩, by decide⟩

theorem test_witness_StoreReadAndWriteReachOneIndex :
    opcodeOf 0x4300003F00 = 0x43 ∧ opcodeOf 0x4400003F00 = 0x44 ∧
    (63#16).toNat = fresh.cfg.n ∧ 14 ≤ fresh.cfg.addrBits ∧ Memory.wf fresh.table = true ∧
    fresh.cfg.n < (64#16).toNat := by decide

/-- The branches of the derivation are those of `test_cvs_storedaddr` and its companion. -/
theorem test_witness_StoredAddressFollowsTheDerivation :
    opcodeOf 0x4600000000 = 0x46 ∧ 14 ≤ fresh.cfg.addrBits := by decide

/-- The largest address that makes the round trip, the first that does not, and a later one. -/
theorem test_witness_AddressRoundTrip :
    14 ≤ Params.ref.addrBits ∧ (510#11).toNat ≤ 510 ∧ (511#11).toNat = 511 ∧
    ((2047#11).toNat + 1) % 512 = 0 ∧ ((600#11).toNat + 1) % 512 - 1 = 88 := by decide

/-- In decoder addressing at 510, and in output addressing. -/
theorem test_witness_CapturedAddressIsTheStoredAddress :
    (let s := pressed .waiting
     s.cfg.Legal ∧ Memory.wf s.table = true ∧ booted s = true ∧ s.sess = .waiting ∧
       (memRead s s.cfg.idxConfig).getLsbD s.cfg.bitAcc.val = true ∧ (510#11).toNat ≤ 510) ∧
    (let s : State := { pressed .waiting with table := [(29, 0xC0)] }
     (memRead s s.cfg.idxConfig).getLsbD s.cfg.bitOut.val = true) := by decide

/-- An initialised store, an erased one, and the document's own values. -/
theorem test_witness_BootInitialisesAnyStore :
    Params.ref.Legal ∧ Params.ref.Normative ∧ Memory.wf refBytes = true ∧
    Memory.read refBytes 0 = Params.ref.magic ∧ Memory.wf [] = true ∧
    Memory.read [] 0 ≠ Params.ref.magic := by decide

/-- Each writer changes a byte: the six of the statement. -/
theorem test_witness_TableIsWrittenOnlyByItsWriters :
    after (fun t => memRead t 3) (exec .cvsSetdef readySmall) = some 0x10 ∧
    after (fun t => memRead t 3) (exec (.cvsWrite 3 0) (ready [])) = some 0 ∧
    after (fun t => memRead t 3) (exec (.cvWrPom 3 0) (ready [])) = some 0 ∧
    after (fun t => memRead t 3) (exec (.cvWrSm 4 0x0D) readySmall) = some 0x10 ∧
    after (fun t => memRead t 3) (exec (.cvBitwSm 3 0 false) (ready [])) = some 0xFE ∧
    after (fun t => memRead t 1) (exec (.acc 37 true false) (pressed .waiting)) = some 0x26 ∧
    after (fun t => memRead t 3) (exec .sysTick { readySmall with
        sess := .armed, now := 5000, raw := true
        btn := { readySmall.btn with currentState := true } }) = some 0x10 := by decide

/-- Just below `CV_MIN` and just above `N`. -/
theorem test_witness_OutOfRangeCommandsAreDropped :
    booted (ready []) = true ∧ (0#16).toNat < Params.ref.cvMin ∧ Params.ref.n < (64#16).toNat := by
  decide

/-- At `CV_MIN` and at `N`, with a match and a mismatch. -/
theorem test_witness_VerifyAcknowledgesOnAMatch :
    (opcodeOf 0x5500090080).toNat / 2 = 0b0101010 ∧ opcodeOf 0x58001D00EF = 0b01011000 ∧
    booted (ready refBytes) = true ∧ Params.ref.cvMin ≤ (1#16).toNat ∧ (1#16).toNat ≤ Params.ref.n ∧
    Params.ref.cvMin ≤ (63#16).toNat ∧ (63#16).toNat ≤ Params.ref.n ∧
    memRead (ready refBytes) 1 = 0x01 ∧ memRead (ready refBytes) 63 ≠ 0x01 := by decide

theorem test_witness_NoOpCommandsChangeNothing :
    (opcodeOf 0x5700090080).toNat / 2 = 0b0101011 ∧ (opcodeOf 0x5B001D00FE).toNat / 2 = 0b0101101 ∧
    (opcodeOf 0x5300090080).toNat / 4 = 0b010100 ∧ booted (ready []) = true := by decide

theorem test_witness_PlainWriteStoresAndAcknowledges :
    booted (ready refBytes) = true ∧ Memory.wf (ready refBytes).table = true ∧
    Params.ref.cvMin ≤ (63#16).toNat ∧ (63#16).toNat ≤ Params.ref.n ∧
    (63#16).toNat ∉ [Params.ref.idxVersion, Params.ref.idxVid, Params.ref.idxRestart,
      Params.ref.idxSearch] := by decide

/-- The four special indices, and the values that tell their clauses apart. -/
theorem test_witness_SpecialWritesFollowTheirOwnRules :
    booted (ready refBytes) = true ∧ (ready refBytes).cfg.Legal ∧
    (7#16).toNat = Params.ref.idxVersion ∧ (8#16).toNat = Params.ref.idxVid ∧
    (0x0C : Byte) ≠ Params.ref.resetSentinel ∧ (25#16).toNat = Params.ref.idxRestart ∧
    (23#16).toNat = Params.ref.idxSearch ∧ (1 : Byte) ≠ 0 := by decide

theorem test_witness_FactoryResetByVendorId :
    booted (ready refBytes) = true ∧ (ready refBytes).cfg.Legal ∧
    Memory.wf (ready refBytes).table = true ∧ (8#16).toNat = Params.ref.idxVid ∧
    (0x0D : Byte) = Params.ref.resetSentinel := by decide

theorem test_witness_BitWriteChangesOneBit :
    opcodeOf 0x59001D00FE = 0x59 ∧ booted (ready refBytes) = true ∧
    Memory.wf (ready refBytes).table = true ∧ Params.ref.cvMin ≤ (29#16).toNat ∧
    (29#16).toNat ≤ Params.ref.n := by decide

/-- Each of the four event lists is reached. -/
theorem test_witness_EventsAreAckThenReboot :
    after State.events (exec .sysNop fresh) = some [] ∧
    after State.events (exec (.cvVfySm 1 0x01) (ready refBytes)) = some [.ack] ∧
    after State.events (exec (.cvWrPom 25 1) (ready refBytes)) = some [.reboot] ∧
    after State.events (exec (.cvWrSm 4 0x0D) readySmall) = some [.ack, .reboot] := by decide

theorem test_witness_RebootLeavesTheResetState :
    ∃ t, exec (.cvWrSm 25 1) (ready refBytes) = .next t ∧ Event.reboot ∈ t.events :=
  ⟨_, rfl, by decide⟩

end Sys2Proof.Tests
end

section
/-! PROOFS of the family `00_scope.md`: what one step of the machine does with the stimulus at the
head of its port (R8, R46). -/

namespace Sys2Proof.Machine

/-- Taking a request off the port and sampling its two inputs touches three fields and no other; the
clock keeps its `CLK_BITS` low bits (R8). -/
theorem present_port_tail (r : Request) (rest : List Stimulus) (s : State) :
    present r { s with port := rest } =
      { s with port := rest, now := r.now % 2 ^ s.cfg.clkBits, raw := r.raw } := rfl

/-- Settles O6: the step issues the request at the head of the port, and a word that decodes to an
instruction is issued as that instruction on the sampled state. -/
theorem stepRunsTheDecodedInstruction : Obligations.StepRunsTheDecodedInstruction := by
  intro s r rest i hport hdecode
  calc step s
      = issue r { s with port := rest } := step_operation hport
    _ = exec i (present r { s with port := rest }) := issue_instr hdecode _
    _ = exec i { s with port := rest, now := r.now % 2 ^ s.cfg.clkBits, raw := r.raw } := by
        rw [present_port_tail]

end Sys2Proof.Machine
end

section
/-! PROOFS of the family `10_state.md`, first part: what a completed operation has done, said once
for all 38 operations. The frames and the invariant of this family are read off it, one case for
each kind of effect. -/

namespace Sys2Proof.Machine

/-- The effects an operation can have on the state it runs in. Operations that share an effect share
a constructor; a constructor keeps the operation and the guards it was reached under. -/
inductive OpEffect (s : State) : Instr → State → Prop
  | noChange (i : Instr) : OpEffect s i (opStart s)
  | acknowledge (i : Instr) : OpEffect s i (emit (opStart s) .ack)
  | query (i : Instr) (b : Bool) : OpEffect s i (respondBool (opStart s) b)
  | value (i : Instr) (v : Nat) (hv : v < 2 ^ s.cfg.addrBits) : OpEffect s i (respond (opStart s) v)
  | tick (hb : booted s = true) : OpEffect s .sysTick (tick s)
  | timerSet (duration : BitVec 32) :
      OpEffect s (.tmrSettime duration)
        { opStart s with tu := setTime s.cfg s.now s.tu duration.toNat }
  | timerExpired (b : Bool) :
      OpEffect s .tmrExpired (respondBool { opStart s with tu := expire s.cfg s.now s.tu } b)
  | timerStop : OpEffect s .tmrStop { opStart s with tu := stopTimer s.tu }
  | timerStart {i : Instr} (hi : i = .tmrStart ∨ i = .tmrRestart) :
      OpEffect s i { opStart s with tu := startTimer s.cfg s.now s.tu }
  | attach (pin : Byte) (debounceTime : BitVec 16) (pullup invert : Bool) :
      OpEffect s (.btnAttach pin debounceTime pullup invert)
        { opStart s with btn := attachButton pin debounceTime pullup invert s.now s.raw }
  | sample {i : Instr} (hi : i = .btnRead ∨ i = .btnTglread) (ha : s.btn.attached = true)
      (b : Bool) : OpEffect s i (respondBool (buttonRead (opStart s)) b)
  | lightOn : OpEffect s .flOn (turnOn (opStart s))
  | lightOff : OpEffect s .flOff (turnOff (opStart s))
  | pattern (i : Instr) {m : FlashMode} (hm : m = .singleBurst ∨ m = .continuousBursts)
      {q : Pattern} (hq : patternUsable m q = true) : OpEffect s i (configure (opStart s) m q)
  | update (b : Bool) : OpEffect s .flUpdate (respondBool (flashUpdate (opStart s)) b)
  | storeInit (decoderType version : Byte) :
      OpEffect s (.cvsInit decoderType version)
        { opStart s with defaults := defaultImage s.cfg decoderType version, inited := true }
  | factoryReset : OpEffect s .cvsSetdef (setDefaults (opStart s))
  | storeWrite {index : BitVec 16} (hi : index.toNat ≤ s.cfg.n) (v : Byte) :
      OpEffect s (.cvsWrite index v) (memWrite (opStart s) index.toNat v)
  | cvWrite {i : Instr} {cvNumber : BitVec 16} {v : Byte} (mode : CvMode)
      (hi : i = .cvWrSm cvNumber v ∨ i = .cvWrPom cvNumber v) (hn : cvNumber.toNat ≤ s.cfg.n) :
      OpEffect s i (writeByte cvNumber.toNat v mode (opStart s))
  | bitWrite {cvNumber : BitVec 16} (bitPos : BitVec 3) (bitVal : Bool)
      (hn : cvNumber.toNat ≤ s.cfg.n) (v : Byte) :
      OpEffect s (.cvBitwSm cvNumber bitPos bitVal)
        (emit (memWrite (opStart s) cvNumber.toNat v) .ack)
  | capture (address : BitVec 11) (isMine isBroadcast : Bool) (hb : booted s = true)
      (hs : s.sess = .waiting) :
      OpEffect s (.acc address isMine isBroadcast) (capture address (opStart s))

theorem addrLow_lt (p : Params) (v : Nat) : addrLow p v < 2 ^ p.addrBits :=
  Nat.mod_lt _ (Nat.two_pow_pos _)

/-- Every address the derivation answers fits a response (R59, R105). -/
theorem deriveAddress_lt (p : Params) (hi lo cfgByte longHigh longLow : Byte) :
    deriveAddress p hi lo cfgByte longHigh longLow < 2 ^ p.addrBits := by
  unfold deriveAddress
  split
  · exact Nat.sub_one_lt (Nat.two_pow_pos _).ne'
  · split
    · split
      · exact addrLow_lt p _
      · exact Nat.mod_lt _ (Nat.two_pow_pos _)
    · exact addrLow_lt p _

/-- A `CV` operation drops what is out of range and has its effect otherwise (R114). -/
theorem OpEffect.of_whenIndexOk {s t : State} {i : Instr} {cvNumber : BitVec 16}
    (h : cvNumber.toNat ≤ s.cfg.n → OpEffect s i t) :
    OpEffect s i (whenIndexOk cvNumber s t) := by
  rcases whenIndexOk_cases cvNumber s t with ⟨hok, e⟩ | ⟨-, e⟩ <;> rw [e]
  · exact h ((cvIndexOk_iff s.cfg cvNumber).1 hok).2
  · exact .noChange i

/-- A verify acknowledges on a match and does nothing else (R115, R120). -/
theorem OpEffect.of_match (s : State) (i : Instr) (P : Prop) [Decidable P] :
    OpEffect s i (if P then emit (opStart s) .ack else opStart s) := by
  split
  · exact .acknowledge i
  · exact .noChange i

theorem captures_waiting {isMine isBroadcast : Bool} {s : State}
    (h : captures isMine isBroadcast s = true) : s.sess = .waiting := by
  simp only [captures, Bool.and_eq_true, beq_iff_eq] at h
  exact h.1.1

theorem indexRefusal_next {r : Refusal} {n k : Nat} {t u : State} :
    (if n < k then Host.Outcome.refused r else .next t : Result) = .next u ↔ k ≤ n ∧ t = u := by
  split <;> simp_all

/-- What a completed operation has done is one of the listed effects. -/
theorem exec_effect {i : Instr} {s t : State} (h : exec i s = .next t) : OpEffect s i t := by
  cases i with
  | sysNop => cases h; exact .noChange _
  | sysTick => obtain ⟨hb, rfl⟩ := whenBooted_next.1 h; exact .tick hb
  | tmrSettime duration => cases h; exact .timerSet duration
  | tmrExpired => cases h; exact .timerExpired _
  | tmrRunning => cases h; exact .query _ _
  | tmrStop => cases h; exact .timerStop
  | tmrStart => cases h; exact .timerStart (.inl rfl)
  | tmrRestart => cases h; exact .timerStart (.inr rfl)
  | btnAttach pin debounceTime pullup invert => cases h; exact .attach ..
  | btnRead => obtain ⟨ha, rfl⟩ := whenAttached_next.1 h; exact .sample (.inl rfl) ha _
  | btnTglread => obtain ⟨ha, rfl⟩ := whenAttached_next.1 h; exact .sample (.inr rfl) ha _
  | btnIspressed | btnIsreleased | btnWaspressed | btnWasreleased | btnPressedfor _
  | btnReleasedfor _ => obtain ⟨-, rfl⟩ := whenAttached_next.1 h; exact .query _ _
  | flOn => cases h; exact .lightOn
  | flOff => cases h; exact .lightOff
  | flSingle on off count pause =>
    obtain ⟨hq, rfl⟩ := hostConfigure_next.1 h; exact .pattern _ (.inl rfl) hq
  | flCont on off count pause =>
    obtain ⟨hq, rfl⟩ := hostConfigure_next.1 h; exact .pattern _ (.inr rfl) hq
  | flUpdate => cases h; exact .update _
  | cvsInit decoderType version => cases h; exact .storeInit decoderType version
  | cvsNotinit => cases h; exact .query _ _
  | cvsSetdef =>
    change (if s.inited then _ else _) = _ at h
    split at h
    · cases h; exact .factoryReset
    · cases h
  | cvsRead index => obtain ⟨-, rfl⟩ := indexRefusal_next.1 h; exact .value _ _ (addrLow_lt _ _)
  | cvsWrite index v => obtain ⟨hi, rfl⟩ := indexRefusal_next.1 h; exact .storeWrite hi v
  | cvsAddrnotset => cases h; exact .query _ _
  | cvsStoredaddr => cases h; exact .value _ _ (deriveAddress_lt ..)
  | cvVfySm n v =>
    obtain ⟨-, rfl⟩ := whenBooted_next.1 h
    exact .of_whenIndexOk fun _ => .of_match ..
  | cvVfyPom n v =>
    obtain ⟨-, rfl⟩ := whenBooted_next.1 h
    exact .of_whenIndexOk fun _ => .noChange _
  | cvWrSm n v =>
    obtain ⟨-, rfl⟩ := whenBooted_next.1 h
    exact .of_whenIndexOk fun hn => .cvWrite .serviceMode (.inl rfl) hn
  | cvWrPom n v =>
    obtain ⟨-, rfl⟩ := whenBooted_next.1 h
    exact .of_whenIndexOk fun hn => .cvWrite .programmingOnMain (.inr rfl) hn
  | cvBitvSm n p d =>
    obtain ⟨-, rfl⟩ := whenBooted_next.1 h
    exact .of_whenIndexOk fun _ => .of_match ..
  | cvBitwSm n p d =>
    obtain ⟨-, rfl⟩ := whenBooted_next.1 h
    exact .of_whenIndexOk fun hn => .bitWrite p d hn _
  | cvBitPom n p d k => obtain ⟨-, rfl⟩ := whenBooted_next.1 h; exact .noChange _
  | cvRsvd n v => cases h; exact .noChange _
  | acc address isMine isBroadcast =>
    obtain ⟨hb, ⟨hc, rfl⟩ | ⟨-, rfl⟩⟩ := execAcc_next.1 h
    · exact .capture address isMine isBroadcast hb (captures_waiting hc)
    · exact .noChange _

end Sys2Proof.Machine
end

section
/-! PROOFS of the family `10_state.md`, second part: the frames of the user timer and of the table,
and the timer's answers over the wrap of the clock (R12, R18, R63). -/

namespace Sys2Proof.Machine

/-! ### The user timer -/

/-- The session's part of a tick reaches the user timer only by a reboot (R130, R153). -/
theorem sessionTick_tu (s : State) :
    (sessionTick s).tu = s.tu ∨ Event.reboot ∈ (sessionTick s).events := by
  rcases sessionTick_cases s with ⟨-, -, e⟩ | ⟨-, -, e⟩ | ⟨-, -, e⟩ | ⟨-, -, e⟩ | ⟨-, -, e⟩ |
    ⟨-, -, -, -, e⟩ <;> rw [e]
  case inr.inl | inr.inr.inr.inr.inl => exact .inr (by simp)
  all_goals exact .inl rfl

theorem tick_tu (s : State) : (tick s).tu = s.tu ∨ Event.reboot ∈ (tick s).events := by
  rcases tick_cases s with ⟨-, e⟩ | ⟨-, e⟩ <;> rw [e] <;> exact sessionTick_tu _

/-- A CV write reaches the user timer only by a reboot (R119, R153). -/
theorem writeByte_tu (idx : Nat) (v : Byte) (mode : CvMode) (s : State) :
    (writeByte idx v mode s).tu = s.tu ∨ Event.reboot ∈ (writeByte idx v mode s).events := by
  rcases writeByte_cases idx v mode s with ⟨-, e⟩ | ⟨-, -, e⟩ | ⟨-, -, e⟩ | ⟨-, -, e⟩ |
    ⟨-, -, e⟩ | ⟨-, -, e⟩ | ⟨-, -, e⟩ | ⟨-, -, -, -, e⟩ <;> rw [e]
  case inr.inl | inr.inr.inr.inl => exact .inr (by simp)
  case inr.inr.inr.inr.inr.inr.inr => exact .inl (by simp)
  all_goals exact .inl rfl

/-- Settles O31: among the effects of an operation only those of the `TMR` operations touch the user
timer, and a tick or a CV write does so by rebooting. -/
theorem userTimerChangesOnlyByTimerOperations :
    Obligations.UserTimerChangesOnlyByTimerOperations := by
  intro i s t h hne
  cases exec_effect h with
  | timerSet duration => exact .inl ⟨duration, rfl⟩
  | timerExpired | timerStop => simp
  | timerStart hi => rcases hi with rfl | rfl <;> simp
  | tick => exact .inr (.inr ((tick_tu s).resolve_left hne))
  | cvWrite mode hi hn => exact .inr (.inr ((writeByte_tu _ _ mode (opStart s)).resolve_left hne))
  | factoryReset => exact absurd (setDefaults_tu (opStart s)) hne
  | _ => exact absurd rfl hne

/-! ### Elapsed time -/

/-- Settles O29: `e` milliseconds after arming, wrapped or not, the modular difference is `e`, and
both queries compare it with the duration. -/
theorem timerAnswersByElapsedTimeAcrossTheWrap :
    Obligations.TimerAnswersByElapsedTimeAcrossTheWrap := by
  intro s t0 d e _ he htu hnow
  have elapsed : clkSub s.cfg s.now t0 = e := by
    rw [hnow]; exact clkSub_clkLow_add s.cfg t0 e he
  have reached : hasElapsed s.cfg s.now s.tu = decide (d ≤ e) := by
    rw [htu, hasElapsed, elapsed]
  have armed : s.tu.armed = true := by rw [htu]
  refine ⟨⟨_, rfl, ?_⟩, ⟨_, rfl, ?_⟩⟩
  · rw [respondBool_rsp, firesNow, armed, reached]
    by_cases h : d ≤ e <;> simp [h]
  · rw [respondBool_rsp, isRunning, armed, reached]
    by_cases h : d ≤ e <;> simp [h]

/-! ### The table -/

/-- A byte that a write has changed stands at the index written (R34). -/
theorem eq_of_memRead_memWrite_ne {s : State} {i k : Nat} {v : Byte}
    (h : memRead (memWrite s i v) k ≠ memRead s k) : k = i := by
  by_contra hk
  exact h (Memory.read_write_other s.table i k v hk)

/-- In a tick only the long hold in `ARMED` reaches the table (R132). -/
theorem sessionTick_table (s : State) :
    (sessionTick s).table = s.table ∨
    (s.sess = .armed ∧ sessionTick s = reboot (setDefaults (turnOff s))) := by
  rcases sessionTick_cases s with ⟨-, -, e⟩ | ⟨ha, -, e⟩ | ⟨-, -, e⟩ | ⟨-, -, e⟩ | ⟨-, -, e⟩ |
    ⟨-, -, -, -, e⟩
  case inr.inl => exact .inr ⟨ha, e⟩
  all_goals rw [e]; exact .inl rfl

theorem tick_table (s : State) :
    (tick s).table = s.table ∨ (s.sess = .armed ∧ (tick s).events = [.reboot]) := by
  have table_or := sessionTick_table (buttonRead (opStart s))
  rcases tick_cases s with ⟨-, e⟩ | ⟨hno, e⟩ <;> rw [e]
  · exact table_or.imp_right fun ⟨ha, e⟩ => ⟨ha, by simp [e]⟩
  · rcases table_or with h | ⟨-, e⟩
    · exact .inl h
    · exact absurd (by simp [e]) hno

/-- A CV write reaches its own index, or the whole table from the vendor-ID CV (R119). -/
theorem writeByte_changes {idx k : Nat} {v : Byte} {mode : CvMode} {s : State}
    (h : memRead (writeByte idx v mode s) k ≠ memRead s k) :
    k = idx ∨ (idx = s.cfg.idxVid ∧ v = s.cfg.resetSentinel) := by
  rcases writeByte_cases idx v mode s with ⟨-, e⟩ | ⟨hi, hv, -⟩ | ⟨-, -, e⟩ | ⟨-, -, e⟩ |
    ⟨-, -, e⟩ | ⟨-, -, e⟩ | ⟨-, -, e⟩ | ⟨-, -, -, -, e⟩
  case inr.inl => exact .inr ⟨hi, hv⟩
  case inr.inr.inr.inr.inr.inr.inr =>
    rw [e, memRead, ackIn_table] at h
    exact .inl (eq_of_memRead_memWrite_ne h)
  all_goals rw [e] at h; exact absurd rfl h

/-- A capture reaches the two address CVs only (R135). -/
theorem capture_changes {address : BitVec 11} {s : State} {k : Nat}
    (h : memRead (capture address s) k ≠ memRead s k) :
    k = s.cfg.idxAddrLow ∨ k = s.cfg.idxAddrHigh := by
  by_contra hk
  obtain ⟨hlow, hhigh⟩ := not_or.1 hk
  refine h ?_
  calc memRead (capture address s) k
      = Memory.read (memWrite s s.cfg.idxAddrLow _).table k :=
        Memory.read_write_other _ _ _ _ hhigh
    _ = memRead s k := Memory.read_write_other _ _ _ _ hlow

/-- Settles O51: each effect that reaches the table names its writer, and the index with it. -/
theorem tableIsWrittenOnlyByItsWriters : Obligations.TableIsWrittenOnlyByItsWriters := by
  intro i s t k h hne
  cases exec_effect h with
  | factoryReset => exact .inl rfl
  | storeWrite _ v => exact .inr (.inl ⟨_, v, rfl, eq_of_memRead_memWrite_ne hne⟩)
  | cvWrite mode hi hn => exact .inr (.inr (.inl ⟨_, _, hi, writeByte_changes (s := opStart s) hne⟩))
  | bitWrite p d =>
    exact .inr (.inr (.inr (.inl ⟨_, p, d, rfl, eq_of_memRead_memWrite_ne hne⟩)))
  | capture a m b hb hs =>
    exact .inr (.inr (.inr (.inr (.inl ⟨a, m, b, rfl, hs, capture_changes hne⟩))))
  | tick =>
    have rebooted := (tick_table s).resolve_left fun e => hne (by rw [memRead, memRead, e])
    exact .inr (.inr (.inr (.inr (.inr ⟨rfl, rebooted⟩))))
  | _ => exact absurd rfl hne

end Sys2Proof.Machine
end

section
/-! PROOFS of the family `10_state.md`, third part: the reset state, and the invariant of the machine.
Each named update of the state has one lemma that says when it keeps `StateOk`; the step lemma is put
together from these, one effect after another. -/

namespace Sys2Proof

open Machine (patternUsable)

/-! ### What the parameters give -/

theorem Params.Legal.named_le {p : Params} (h : p.Legal) {i : Nat} (hi : i ∈ p.namedIndices) :
    i ≤ p.n := by
  obtain ⟨-, bounds, -⟩ := h
  exact (bounds i hi).2

theorem Params.Legal.one_lt_two_pow_addrBits {p : Params} (h : p.Legal) : 1 < 2 ^ p.addrBits := by
  obtain ⟨-, -, -, haddr, -⟩ := h
  exact Nat.one_lt_two_pow (by omega)

/-- A pattern with no 0 in it can be configured (R6, R85). -/
theorem Pattern.Positive.usable {q : Pattern} (h : q.Positive) :
    patternUsable .continuousBursts q = true := by
  obtain ⟨hon, hoff, hcount, hpause⟩ := h
  simp only [patternUsable, Bool.and_eq_true, Bool.or_eq_true, bne_iff_ne]
  exact ⟨⟨⟨hon, hcount⟩, .inr hoff⟩, hpause⟩

end Sys2Proof

namespace Sys2Proof.Machine

/-! ### The reset state -/

/-- Settles O9: the record of `State.resetWith` holds R26's values; a default is 0 inside the `N+1`
bytes and, by the way `defaultAt` reads, outside them. -/
theorem resetStateHoldsTheResetValues : Obligations.ResetStateHoldsTheResetValues := by
  intro p m s
  have defaults_zero : ∀ i, defaultAt s i = 0 := by
    intro i
    simp only [s, defaultAt, resetWith_defaults, List.getD_eq_getElem?_getD, List.getElem?_replicate]
    split <;> rfl
  exact ⟨rfl, List.length_replicate, defaults_zero, rfl, rfl, rfl, rfl, rfl, rfl, rfl⟩

theorem timerOk_reset (p : Params) : TimerOk p Timer.reset :=
  ⟨Nat.two_pow_pos _, Nat.two_pow_pos _, nofun⟩

theorem buttonOk_reset (p : Params) : ButtonOk p Button.reset :=
  ⟨Nat.two_pow_pos _, nofun, fun _ => rfl⟩

theorem flashOk_reset (p : Params) : FlashOk p Flash.reset :=
  ⟨Nat.two_pow_pos _, nofun, fun _ => rfl, nofun⟩

/-- The reset state is consistent over every canonical table (R26). -/
theorem stateOk_resetWith {p : Params} {m : Memory} (legal : p.Legal) (hwf : Memory.wf m = true)
    (hin : Memory.within p.n m = true) : StateOk (State.resetWith p m) :=
  ⟨legal, ⟨hwf, hin, List.length_replicate, fun _ => rfl, nofun⟩, timerOk_reset p, timerOk_reset p,
    buttonOk_reset p, flashOk_reset p, ⟨fun h => absurd rfl h, nofun, nofun⟩,
    ⟨Nat.two_pow_pos _, List.mem_cons_self, Nat.two_pow_pos _⟩⟩

/-- Settles O10: the machine's own reset state is the reset state over the empty table at REF. -/
theorem resetStateIsConsistent : Obligations.ResetStateIsConsistent :=
  ⟨stateOk_resetWith (by decide) rfl rfl, fun _ _ => stateOk_resetWith⟩

/-! ### Timers -/

theorem TimerOk.setTime {p : Params} {t : Timer} (h : TimerOk p t) {now : Nat}
    (hnow : now < 2 ^ p.clkBits) (d : Nat) : TimerOk p (setTime p now t d) := by
  obtain ⟨-, hstart, -⟩ := h
  rcases setTime_cases p now t d with ⟨hd, e⟩ | ⟨-, e⟩ <;> rw [e]
  · exact ⟨clkLow_lt p d, hnow, fun _ => hd⟩
  · exact ⟨Nat.two_pow_pos _, hstart, nofun⟩

theorem TimerOk.stopTimer {p : Params} {t : Timer} (h : TimerOk p t) : TimerOk p (stopTimer t) := by
  obtain ⟨hduration, hstart, -⟩ := h
  exact ⟨hduration, hstart, nofun⟩

theorem TimerOk.expire {p : Params} {t : Timer} (h : TimerOk p t) (now : Nat) :
    TimerOk p (expire p now t) := by
  rcases expire_cases p now t with ⟨-, e⟩ | ⟨-, e⟩ <;> rw [e]
  · exact h.stopTimer
  · exact h

/-! ### The button -/

theorem buttonOk_attachButton {p : Params} {now : Nat} (hnow : now < 2 ^ p.clkBits) (pin : Byte)
    (debounceTime : BitVec 16) (pullup invert raw : Bool) :
    ButtonOk p (attachButton pin debounceTime pullup invert now raw) :=
  ⟨hnow, nofun, nofun⟩

/-- A read reports a change only with two different samples in hand (R74). -/
theorem ButtonOk.readButton {p : Params} {b : Button} (h : ButtonOk p b) {now : Nat}
    (hnow : now < 2 ^ p.clkBits) (raw : Bool) (ha : b.attached = true) :
    ButtonOk p (readButton p now raw b) := by
  obtain ⟨hlast, -, -⟩ := h
  refine ⟨?_, ?_, fun hd => by simp [ha] at hd⟩
  all_goals
    rcases readButton_cases p now raw b with ⟨-, e⟩ | ⟨-, hne, e⟩ | ⟨-, -, e⟩ <;> rw [e]
  · exact hlast
  · exact hnow
  · exact hlast
  · nofun
  · exact fun _ => hne
  · nofun

/-! ### The indicator -/

theorem timedMode_iff_ne_steady (f : Flash) :
    timedMode f = true ↔ f.mode ≠ .alwaysOff ∧ f.mode ≠ .alwaysOn := by
  rw [timedMode_iff]
  cases f.mode <;> simp

/-- What a usable pattern of a timed mode promises about the fields the mode uses (R85). -/
theorem patternUsable_timed {m : FlashMode} {q : Pattern}
    (hm : m = .singleBurst ∨ m = .continuousBursts) :
    patternUsable m q = true ↔ q.on ≠ 0 ∧ q.count ≠ 0 ∧ (1 < q.count.toNat → q.off ≠ 0) ∧
      (m = .continuousBursts → q.pause ≠ 0) := by
  have imp_iff : (q.count.toNat ≤ 1 ∨ q.off ≠ 0) ↔ (1 < q.count.toNat → q.off ≠ 0) := by
    rw [← Nat.not_lt, or_iff_not_imp_left, not_not]
  rw [← imp_iff]
  rcases hm with rfl | rfl <;> simp [patternUsable, and_assoc]

theorem PatternOk.fields {f : Flash} (h : PatternOk f) (hm : timedMode f = true) :
    f.onTicks ≠ 0 ∧ f.burstCount ≠ 0 ∧ (1 < f.burstCount.toNat → f.offTicks ≠ 0) ∧
      (f.mode = .continuousBursts → f.pauseTicks ≠ 0) := by
  obtain ⟨hq, -⟩ := h
  exact (patternUsable_timed ((timedMode_iff f).1 hm)).1 hq

/-- In a timed mode only the pattern and the stored time are left to show. -/
theorem flashOk_of_timed {p : Params} {f : Flash} (hlast : f.lastTick < 2 ^ p.clkBits)
    (hm : timedMode f = true) (hp : PatternOk f) : FlashOk p f := by
  obtain ⟨hoff, hon⟩ := (timedMode_iff_ne_steady f).1 hm
  exact ⟨hlast, fun h => absurd h hon, fun h => absurd h hoff, fun _ => hp⟩

theorem flashOk_dark {p : Params} {f : Flash} (hlast : f.lastTick < 2 ^ p.clkBits)
    (hm : f.mode = .alwaysOff) (hled : f.led = false) : FlashOk p f :=
  ⟨hlast, fun h => by simp [hm] at h, fun _ => hled, fun h => by simp [timedMode, hm] at h⟩

theorem FlashOk.lightOn {p : Params} {f : Flash} (h : FlashOk p f) : FlashOk p (lightOn f) := by
  obtain ⟨hlast, -⟩ := h
  exact ⟨hlast, fun _ => rfl, nofun, nofun⟩

theorem FlashOk.lightOff {p : Params} {f : Flash} (h : FlashOk p f) : FlashOk p (lightOff f) := by
  obtain ⟨hlast, -⟩ := h
  exact flashOk_dark hlast rfl rfl

theorem toNat_pos_of_ne_zero {b : Byte} (h : b ≠ 0) : 0 < b.toNat :=
  Nat.pos_of_ne_zero (BitVec.toNat_ne_iff_ne.2 h)

theorem flashOk_configured {p : Params} {now : Nat} (hnow : now < 2 ^ p.clkBits) {m : FlashMode}
    (hm : m = .singleBurst ∨ m = .continuousBursts) {q : Pattern} (hq : patternUsable m q = true) :
    FlashOk p (configured m q now) := by
  obtain ⟨hon, hcount, -⟩ := (patternUsable_timed hm).1 hq
  have hpos := toNat_pos_of_ne_zero hcount
  exact flashOk_of_timed hnow ((timedMode_iff _).2 hm) ⟨hq, hon, fun _ => hpos, nofun, fun _ => hpos⟩

/-- The count of flashes does not wrap: it is inside the burst while the indicator is lit (R90). -/
theorem PatternOk.toNat_succ {f : Flash} (h : PatternOk f) (hled : f.led = true) :
    (f.burstsSoFar + 1).toNat = f.burstsSoFar.toNat + 1 := by
  obtain ⟨-, -, hlit, -⟩ := h
  have := hlit hled
  have := f.burstCount.isLt
  rw [BitVec.toNat_add_of_not_uaddOverflow]
  · rfl
  · simp [BitVec.uaddOverflow]; omega

/-- A time step of a timed mode keeps the pattern consistent, or ends it (R90). -/
theorem flashOk_timeStep {p : Params} {now : Nat} (hnow : now < 2 ^ p.clkBits) {f : Flash}
    (hm : timedMode f = true) (h : PatternOk f) : FlashOk p (timeStep now f) := by
  have succ := h.toNat_succ
  obtain ⟨hon, hcount, hoff, hpause⟩ := h.fields hm
  obtain ⟨hq, -, hlit, hdark, hsingle⟩ := h
  have hpos := toNat_pos_of_ne_zero hcount
  rcases timeStep_cases now f with ⟨hticks, e⟩ | ⟨-, hl, hmore, e⟩ | ⟨-, hl, hlast, hs, e⟩ |
    ⟨-, hl, hlast, hs, e⟩ | ⟨-, hl, hlast, e⟩ | ⟨-, hl, hmore, e⟩ <;> rw [e]
  · exact flashOk_of_timed hnow hm ⟨hq, hticks, hlit, hdark, hsingle⟩
  · have := succ hl
    exact flashOk_of_timed hnow hm
      ⟨hq, hoff (by omega), nofun, fun _ => by dsimp only; omega, fun _ => hmore⟩
  · exact flashOk_dark hnow rfl rfl
  · have := succ hl
    have := hlit hl
    have continuous := ((timedMode_iff f).1 hm).resolve_left hs
    exact flashOk_of_timed hnow hm
      ⟨hq, hpause continuous, nofun, fun _ => by dsimp only; omega, fun h => absurd h hs⟩
  · exact flashOk_of_timed hnow hm ⟨hq, hon, fun _ => hpos, nofun, fun _ => hpos⟩
  · exact flashOk_of_timed hnow hm ⟨hq, hon, fun _ => hmore, nofun, fun _ => hmore⟩

theorem FlashOk.updateFlash {p : Params} {f : Flash} (h : FlashOk p f) {now : Nat}
    (hnow : now < 2 ^ p.clkBits) : FlashOk p (updateFlash p now f) := by
  rcases updateFlash_cases p now f with ⟨-, e⟩ | ⟨-, -, e⟩ | ⟨hm, -, e⟩ <;> rw [e]
  · exact h
  · exact h
  · obtain ⟨-, -, -, hp⟩ := h
    exact flashOk_timeStep hnow hm (hp hm)

/-! ### One element replaced -/

section Replace

variable {s : State} (h : StateOk s)
include h

theorem StateOk.now_lt : s.now < 2 ^ s.cfg.clkBits := by
  obtain ⟨-, -, -, -, -, -, -, -, -, hnow⟩ := h
  exact hnow

/-- The model's own fields, those of the environment and of the answer, are tied to no other. -/
theorem StateOk.withAnswer {now rsp : Nat} {raw : Bool} {events : List Event}
    {port : List Stimulus} (hrsp : rsp < 2 ^ s.cfg.addrBits) (hevents : events ∈ legalEvents)
    (hnow : now < 2 ^ s.cfg.clkBits) :
    StateOk { s with now := now, raw := raw, rsp := rsp, events := events, port := port } := by
  obtain ⟨legal, store, tu, ts, btn, fl, sess, -⟩ := h
  exact ⟨legal, store, tu, ts, btn, fl, sess, hrsp, hevents, hnow⟩

theorem StateOk.withTable {m : Memory} (hwf : Memory.wf m = true)
    (hin : Memory.within s.cfg.n m = true) : StateOk { s with table := m } := by
  obtain ⟨legal, ⟨-, -, image⟩, tu, ts, btn, fl, sess, answer⟩ := h
  exact ⟨legal, ⟨hwf, hin, image⟩, tu, ts, btn, fl, sess, answer⟩

theorem StateOk.withTu {t : Timer} (ht : TimerOk s.cfg t) : StateOk { s with tu := t } := by
  obtain ⟨legal, store, -, ts, btn, fl, sess, answer⟩ := h
  exact ⟨legal, store, ht, ts, btn, fl, sess, answer⟩

/-- An attached button may stand for any other: a session that was booted stays so. -/
theorem StateOk.withBtn {b : Button} (hb : ButtonOk s.cfg b) (ha : b.attached = true) :
    StateOk { s with btn := b } := by
  obtain ⟨legal, store, tu, ts, -, fl, ⟨boot, settle⟩, answer⟩ := h
  have boot' : s.sess ≠ .idle → booted { s with btn := b } = true := fun hs =>
    (booted_iff _).2 ⟨((booted_iff s).1 (boot hs)).1, ha⟩
  exact ⟨legal, store, tu, ts, hb, fl, ⟨boot', settle⟩, answer⟩

theorem StateOk.withFl {f : Flash} (hf : FlashOk s.cfg f) : StateOk { s with fl := f } := by
  obtain ⟨legal, store, tu, ts, btn, -, sess, answer⟩ := h
  exact ⟨legal, store, tu, ts, btn, hf, sess, answer⟩

theorem StateOk.withFlashFlag (b : Bool) : StateOk { s with flashFlag := b } := h

/-- Outside `CAPTURED`, where the settle timer is disarmed, a booted session may take any state but
`CAPTURED` (R131 to R133). -/
theorem StateOk.withSess {x : Session} (hb : booted s = true) (hs : s.sess ≠ .captured)
    (hx : x ≠ .captured) : StateOk { s with sess := x } := by
  obtain ⟨legal, store, tu, ts, btn, fl, ⟨-, settle, -⟩, answer⟩ := h
  exact ⟨legal, store, tu, ts, btn, fl,
    ⟨fun _ => hb, fun harmed => absurd (settle harmed) hs, fun h => absurd h hx⟩, answer⟩

/-! ### The shared operations -/

theorem StateOk.opStart : StateOk (opStart s) :=
  h.withAnswer (Nat.two_pow_pos _) List.mem_cons_self h.now_lt

theorem StateOk.respond {v : Nat} (hv : v < 2 ^ s.cfg.addrBits) : StateOk (respond s v) := by
  obtain ⟨-, -, -, -, -, -, -, -, hevents, hnow⟩ := id h
  exact h.withAnswer hv hevents hnow

theorem StateOk.respondBool (b : Bool) : StateOk (respondBool s b) := by
  obtain ⟨legal, -⟩ := id h
  exact h.respond (lt_of_le_of_lt (Bool.toNat_le b) legal.one_lt_two_pow_addrBits)

/-- An event may be added where the list is still one of the four (R124). -/
theorem StateOk.emit {e : Event} (he : s.events ++ [e] ∈ legalEvents) : StateOk (emit s e) := by
  obtain ⟨-, -, -, -, -, -, -, hrsp, -, hnow⟩ := id h
  exact h.withAnswer hrsp he hnow

theorem StateOk.acknowledge (hno : s.events = []) : StateOk (Machine.emit s .ack) :=
  h.emit (by simp [hno, legalEvents])

theorem StateOk.ackIn (mode : CvMode) (hno : s.events = []) : StateOk (ackIn mode s) := by
  cases mode with
  | serviceMode => exact h.acknowledge hno
  | programmingOnMain => exact h

theorem StateOk.memWrite {i : Nat} (hi : i ≤ s.cfg.n) (v : Byte) : StateOk (memWrite s i v) := by
  obtain ⟨-, ⟨hwf, hin, -⟩, -⟩ := id h
  exact h.withTable (Memory.wf_write _ i v hwf) (Memory.within_write _ _ i v hin hi)

theorem StateOk.setDefaults : StateOk (setDefaults s) := by
  obtain ⟨-, ⟨hwf, hin, -⟩, -⟩ := id h
  have hwf' := setDefaults_table_wf s hwf
  have hin' := setDefaults_table_within s hin
  rw [setDefaults_eq] at hwf' hin' ⊢
  exact h.withTable hwf' hin'

theorem StateOk.volatileReset : StateOk (volatileReset s) := by
  obtain ⟨legal, ⟨hwf, hin, -⟩, -, -, -, -, -, hrsp, hevents, hnow⟩ := h
  exact (stateOk_resetWith legal hwf hin).withAnswer hrsp hevents hnow

theorem StateOk.reboot (he : s.events ++ [.reboot] ∈ legalEvents) : StateOk (reboot s) :=
  (h.emit he).volatileReset

theorem StateOk.buttonRead (ha : s.btn.attached = true) : StateOk (buttonRead s) := by
  obtain ⟨-, -, -, -, hbtn, -⟩ := id h
  exact h.withBtn (hbtn.readButton h.now_lt s.raw ha) (by simpa using ha)

theorem StateOk.turnOn : StateOk (turnOn s) := by
  obtain ⟨-, -, -, -, -, hfl, -⟩ := id h
  exact h.withFl hfl.lightOn

theorem StateOk.turnOff : StateOk (turnOff s) := by
  obtain ⟨-, -, -, -, -, hfl, -⟩ := id h
  exact h.withFl hfl.lightOff

theorem StateOk.flashUpdate : StateOk (flashUpdate s) := by
  obtain ⟨-, -, -, -, -, hfl, -⟩ := id h
  exact h.withFl (hfl.updateFlash h.now_lt)

theorem StateOk.configure {m : FlashMode} (hm : m = .singleBurst ∨ m = .continuousBursts)
    {q : Pattern} (hq : patternUsable m q = true) : StateOk (configure s m q) :=
  h.withFl (flashOk_configured h.now_lt hm hq)

theorem StateOk.storeInit (decoderType version : Byte) :
    StateOk { s with defaults := defaultImage s.cfg decoderType version, inited := true } := by
  obtain ⟨legal, ⟨hwf, hin, -⟩, tu, ts, btn, fl, ⟨boot, settle⟩, answer⟩ := h
  have image : (defaultImage s.cfg decoderType version).length = s.cfg.n + 1 := by
    simp [defaultImage]
  exact ⟨legal, ⟨hwf, hin, image, nofun, fun _ => ⟨decoderType, version, rfl⟩⟩, tu, ts, btn, fl,
    ⟨fun hs => (booted_iff _).2 ⟨rfl, ((booted_iff s).1 (boot hs)).2⟩, settle⟩, answer⟩

/-! ### CV writes, the session and the tick -/

theorem StateOk.writeByte {idx : Nat} (hi : idx ≤ s.cfg.n) (v : Byte) (mode : CvMode)
    (hno : s.events = []) : StateOk (writeByte idx v mode s) := by
  obtain ⟨-, -, -, -, -, -, -, -, hsearch⟩ := id h.1
  rcases writeByte_cases idx v mode s with ⟨-, e⟩ | ⟨-, -, e⟩ | ⟨-, -, e⟩ | ⟨-, -, e⟩ |
    ⟨-, -, e⟩ | ⟨-, -, e⟩ | ⟨-, -, e⟩ | ⟨-, -, -, -, e⟩ <;> rw [e]
  case inr.inl =>
    refine (h.setDefaults.ackIn mode (by simpa using hno)).reboot ?_
    cases mode <;> simp [hno, legalEvents]
  case inr.inr.inr.inl => exact h.reboot (by simp [hno, legalEvents])
  case inr.inr.inr.inr.inr.inl => exact (h.configure (.inr rfl) hsearch.usable).withFlashFlag true
  case inr.inr.inr.inr.inr.inr.inl => exact h.turnOff.withFlashFlag false
  case inr.inr.inr.inr.inr.inr.inr => exact (h.memWrite hi v).ackIn mode hno
  all_goals exact h

theorem StateOk.sessionTick (hb : booted s = true) (hno : s.events = []) :
    StateOk (sessionTick s) := by
  obtain ⟨-, -, -, -, -, -, -, hfast, -⟩ := id h.1
  have reboots : s.events ++ [.reboot] ∈ legalEvents := by simp [hno, legalEvents]
  rcases sessionTick_cases s with ⟨hs, -, e⟩ | ⟨-, -, e⟩ | ⟨hs, -, e⟩ | ⟨hs, -, e⟩ | ⟨-, -, e⟩ |
    ⟨-, -, -, -, e⟩ <;> rw [e]
  · exact h.turnOn.withSess hb (by simp [hs]) nofun
  · exact h.turnOff.setDefaults.reboot (by simpa using reboots)
  · exact (h.configure (.inr rfl) hfast.usable).withSess hb (by simp [hs]) nofun
  · exact h.turnOff.withSess hb (by simp [hs]) nofun
  · exact h.reboot reboots
  · exact h

theorem StateOk.tick (hb : booted s = true) : StateOk (tick s) := by
  obtain ⟨hi, ha⟩ := (booted_iff s).1 hb
  have hread : booted (Machine.buttonRead (Machine.opStart s)) = true := by simp [booted, hi, ha]
  have hsession := (h.opStart.buttonRead ha).sessionTick hread rfl
  rcases tick_cases s with ⟨-, e⟩ | ⟨-, e⟩ <;> rw [e]
  · exact hsession
  · exact hsession.flashUpdate

/-- Entering `CAPTURED` sets the settle timer, which arms it but where the settle time is 0 in
`CLK_BITS` bits (R135; log 8). -/
theorem StateOk.withSettle (hb : booted s = true) :
    StateOk { s with ts := setTime s.cfg s.now s.ts s.cfg.settleMs, sess := .captured } := by
  have arms : 0 < clkLow s.cfg s.cfg.settleMs →
      (setTime s.cfg s.now s.ts s.cfg.settleMs).armed = true := by
    intro hpos
    rcases setTime_cases s.cfg s.now s.ts s.cfg.settleMs with ⟨-, e⟩ | ⟨h0, -⟩
    · rw [e]
    · omega
  have hnow := h.now_lt
  obtain ⟨legal, store, tu, ts, btn, fl, -, answer⟩ := h
  exact ⟨legal, store, tu, ts.setTime hnow _, btn, fl,
    ⟨fun _ => hb, fun _ => rfl, fun _ => arms⟩, answer⟩

theorem StateOk.capture (address : BitVec 11) (hb : booted s = true) :
    StateOk (capture address s) := by
  obtain ⟨legal, -⟩ := id h
  have hlow : s.cfg.idxAddrLow ≤ s.cfg.n := legal.named_le (by simp [Params.namedIndices])
  have hhigh : s.cfg.idxAddrHigh ≤ s.cfg.n := legal.named_le (by simp [Params.namedIndices])
  exact ((h.memWrite hlow _).memWrite hhigh _).withSettle hb

end Replace

/-! ### Operations and steps -/

/-- Every effect an operation can have keeps the invariant. -/
theorem OpEffect.stateOk {s t : State} {i : Instr} (he : OpEffect s i t) (h : StateOk s) :
    StateOk t := by
  obtain ⟨-, -, tu, -⟩ := id h
  have start := h.opStart
  cases he with
  | noChange => exact start
  | acknowledge => exact start.acknowledge rfl
  | query _ b => exact start.respondBool b
  | value _ v hv => exact start.respond hv
  | tick hb => exact h.tick hb
  | timerSet duration => exact start.withTu (tu.setTime h.now_lt _)
  | timerExpired b => exact (start.withTu (tu.expire _)).respondBool b
  | timerStop => exact start.withTu tu.stopTimer
  | timerStart => exact start.withTu (tu.setTime h.now_lt _)
  | attach => exact start.withBtn (buttonOk_attachButton h.now_lt ..) rfl
  | sample _ ha b => exact (start.buttonRead ha).respondBool b
  | lightOn => exact start.turnOn
  | lightOff => exact start.turnOff
  | pattern _ hm hq => exact start.configure hm hq
  | update b => exact start.flashUpdate.respondBool b
  | storeInit decoderType version => exact start.storeInit decoderType version
  | factoryReset => exact start.setDefaults
  | storeWrite hi v => exact start.memWrite hi v
  | cvWrite mode _ hn => exact start.writeByte hn _ mode rfl
  | bitWrite _ _ hn v => exact (start.memWrite hn v).acknowledge rfl
  | capture address _ _ hb _ => exact start.capture address hb

theorem StateOk.withPort {s : State} (h : StateOk s) (rest : List Stimulus) :
    StateOk { s with port := rest } := h

theorem StateOk.present {s : State} (h : StateOk s) (r : Request) : StateOk (present r s) := by
  obtain ⟨-, -, -, -, -, -, -, hrsp, hevents, -⟩ := id h
  exact h.withAnswer hrsp hevents (clkLow_lt _ _)

theorem StateOk.issue {s t : State} (h : StateOk s) {r : Request} (hr : issue r s = .next t) :
    StateOk t := by
  cases hd : decode r.word with
  | instr i =>
    rw [issue_instr hd] at hr
    exact (exec_effect hr).stateOk (h.present r)
  | reserved why =>
    rw [issue_reserved hd] at hr
    cases hr
    exact (h.present r).opStart

/-- Settles O11, by what stands at the head of the port. -/
theorem stepKeepsTheStateConsistent : Obligations.StepKeepsTheStateConsistent := by
  intro s t h hstep
  cases hport : s.port with
  | nil =>
    rw [step_idle hport] at hstep
    cases hstep
    exact h.opStart
  | cons stimulus rest =>
    cases stimulus with
    | operation r =>
      rw [step_operation hport] at hstep
      exact (h.withPort rest).issue hstep
    | powerCycle =>
      rw [step_powerCycle hport] at hstep
      cases hstep
      exact (h.withPort rest).opStart.volatileReset

end Sys2Proof.Machine
end

section
/-! PROOFS of the family `30_encoding.md`. The rows of the opcode table exclude each other, so a word
decodes by the one row that selects it; what the encoder writes for a decoded word is said once for
every row (`Row.Reencodes`), and the statements about operand bits and ignored bits are read off it. -/

namespace Sys2Proof

/-! ### Decoding undoes encoding -/

/-- Settles O1, constructor by constructor: the row of the encoder's opcode reads each placed field
back. -/
theorem decodeEncodeGivesBackEveryInstruction :
    Obligations.DecodeEncodeGivesBackEveryInstruction := by
  intro i
  cases i with
  | sysNop => exact Laws.DecodesBack.sysNop
  | sysTick => exact Laws.DecodesBack.sysTick
  | tmrSettime duration => exact Laws.DecodesBack.tmrSettime duration
  | tmrExpired => exact Laws.DecodesBack.tmrExpired
  | tmrRunning => exact Laws.DecodesBack.tmrRunning
  | tmrStop => exact Laws.DecodesBack.tmrStop
  | tmrStart => exact Laws.DecodesBack.tmrStart
  | tmrRestart => exact Laws.DecodesBack.tmrRestart
  | btnAttach pin debounceTime pullup invert =>
    exact Laws.DecodesBack.btnAttach pin debounceTime pullup invert
  | btnRead => exact Laws.DecodesBack.btnRead
  | btnIspressed => exact Laws.DecodesBack.btnIspressed
  | btnIsreleased => exact Laws.DecodesBack.btnIsreleased
  | btnWaspressed => exact Laws.DecodesBack.btnWaspressed
  | btnWasreleased => exact Laws.DecodesBack.btnWasreleased
  | btnPressedfor ms => exact Laws.DecodesBack.btnPressedfor ms
  | btnReleasedfor ms => exact Laws.DecodesBack.btnReleasedfor ms
  | btnTglread => exact Laws.DecodesBack.btnTglread
  | flOn => exact Laws.DecodesBack.flOn
  | flOff => exact Laws.DecodesBack.flOff
  | flSingle on off count pause => exact Laws.DecodesBack.flSingle on off count pause
  | flCont on off count pause => exact Laws.DecodesBack.flCont on off count pause
  | flUpdate => exact Laws.DecodesBack.flUpdate
  | cvsInit decoderType version => exact Laws.DecodesBack.cvsInit decoderType version
  | cvsNotinit => exact Laws.DecodesBack.cvsNotinit
  | cvsSetdef => exact Laws.DecodesBack.cvsSetdef
  | cvsRead index => exact Laws.DecodesBack.cvsRead index
  | cvsWrite index value => exact Laws.DecodesBack.cvsWrite index value
  | cvsAddrnotset => exact Laws.DecodesBack.cvsAddrnotset
  | cvsStoredaddr => exact Laws.DecodesBack.cvsStoredaddr
  | cvVfySm cvNumber value => exact Laws.DecodesBack.cvVfySm cvNumber value
  | cvVfyPom cvNumber value => exact Laws.DecodesBack.cvVfyPom cvNumber value
  | cvWrSm cvNumber value => exact Laws.DecodesBack.cvWrSm cvNumber value
  | cvWrPom cvNumber value => exact Laws.DecodesBack.cvWrPom cvNumber value
  | cvBitvSm cvNumber bitPos bitVal => exact Laws.DecodesBack.cvBitvSm cvNumber bitPos bitVal
  | cvBitwSm cvNumber bitPos bitVal => exact Laws.DecodesBack.cvBitwSm cvNumber bitPos bitVal
  | cvBitPom cvNumber bitPos bitVal writeBit =>
    exact Laws.DecodesBack.cvBitPom cvNumber bitPos bitVal writeBit
  | cvRsvd cvNumber value => exact Laws.DecodesBack.cvRsvd cvNumber value
  | acc address isMine isBroadcast => exact Laws.DecodesBack.acc address isMine isBroadcast

theorem encode_injective {i j : Instr} (h : encode i = encode j) : i = j :=
  Decoded.instr.inj <| calc
    .instr i = decode (encode i) := (decodeEncodeGivesBackEveryInstruction i).symm
    _ = decode (encode j) := by rw [h]
    _ = .instr j := decodeEncodeGivesBackEveryInstruction j

/-! ### The row that selects an opcode -/

/-- Two rows that select one opcode are the same row (R62). -/
theorem row_eq_of_selects {r r' : Row} {op : Opcode} (hr : r ∈ opcodeRows) (hr' : r' ∈ opcodeRows)
    (h : r.selects op = true) (h' : r'.selects op = true) : r = r' := by
  by_contra hne
  have hsymm : Std.Symm fun r r' : Row =>
      r.mask &&& r'.mask &&& (r.pattern ^^^ r'.pattern) ≠ 0 :=
    ⟨fun a b hab => by rwa [BitVec.and_comm b.mask, BitVec.xor_comm b.pattern]⟩
  refine opcodeRows_disjoint.forall hr hr' hne ?_
  rw [← eq_of_beq h, ← eq_of_beq h']
  have bit : ∀ x m m' : Bool, (m && m' && ((x && m) ^^ (x && m'))) = false := by decide
  refine BitVec.eq_of_getLsbD_eq fun i _ => ?_
  rw [BitVec.getLsbD_and, BitVec.getLsbD_and, BitVec.getLsbD_xor, BitVec.getLsbD_and,
    BitVec.getLsbD_and, bit]
  exact BitVec.getLsbD_zero.symm

theorem decodeParts_of_selects {r : Row} {op : Opcode} (hr : r ∈ opcodeRows)
    (h : r.selects op = true) (a : Arg) : decodeParts op a = .instr (r.operands op a) := by
  unfold decodeParts
  cases hfind : opcodeRows.find? (fun r => r.selects op) with
  | none => exact absurd h (List.find?_eq_none.1 hfind r hr)
  | some r' =>
    have hsel : r'.selects op = true := by simpa using List.find?_some hfind
    rw [row_eq_of_selects (List.mem_of_find?_eq_some hfind) hr hsel h]

theorem decodeParts_of_not_selected {op : Opcode}
    (h : ∀ r ∈ opcodeRows, r.selects op = false) (a : Arg) :
    decodeParts op a = .reserved (reservedName op) := by
  have hfind : opcodeRows.find? (fun r => r.selects op) = none :=
    List.find?_eq_none.2 fun r hr => by simp [h r hr]
  simp [decodeParts, hfind]

/-- An opcode is selected by a row, or its words are reserved (R62). -/
theorem selected_or_not (op : Opcode) :
    (∃ r ∈ opcodeRows, r.selects op = true) ∨ ∀ r ∈ opcodeRows, r.selects op = false := by
  by_cases h : ∃ r ∈ opcodeRows, r.selects op = true
  · exact .inl h
  · exact .inr fun r hr => by simpa using fun hsel => h ⟨r, hr, hsel⟩

theorem exists_row_of_decode {w : OpWord} {i : Instr} (h : decode w = .instr i) :
    ∃ r ∈ opcodeRows, r.selects (opcodeOf w) = true ∧ r.operands (opcodeOf w) (argOf w) = i := by
  unfold decode at h
  rcases selected_or_not (opcodeOf w) with ⟨r, hr, hsel⟩ | hnone
  · rw [decodeParts_of_selects hr hsel] at h
    exact ⟨r, hr, hsel, Decoded.instr.inj h⟩
  · simp [decodeParts_of_not_selected hnone] at h

/-! ### A field read from an `arg` and placed again -/

theorem place_argField (a : Arg) (lo len : Nat) :
    place lo (argField a lo len) = a &&& place lo (BitVec.allOnes len) := by
  refine BitVec.eq_of_getLsbD_eq fun i hi => ?_
  rw [getLsbD_place, BitVec.getLsbD_and, getLsbD_place, getLsbD_argField, BitVec.getLsbD_allOnes]
  by_cases h : i < lo
  · simp [h]
  · simp [h, hi, show lo + (i - lo) = i by omega, Bool.and_comm]

theorem placeBit_argBit (a : Arg) (lo : Nat) :
    placeBit lo (argBit a lo) = a &&& placeBit lo true := by
  refine BitVec.eq_of_getLsbD_eq fun i hi => ?_
  rw [getLsbD_placeBit, BitVec.getLsbD_and, getLsbD_placeBit, argBit]
  by_cases h : i = lo
  · simp [h, Bool.and_comm]
  · simp [h]

theorem attachArg_argFields (a : Arg) :
    attachArg (argField a 24 8) (argField a 8 16) (argBit a 1) (argBit a 0) = a &&& 0xFFFFFF03 := by
  simp only [attachArg, place_argField, placeBit_argBit, ← BitVec.and_or_distrib_left]
  rfl

theorem patternArg_argFields (a : Arg) :
    patternArg (argField a 24 8) (argField a 16 8) (argField a 8 8) (argField a 0 8) =
      a &&& 0xFFFFFFFF := by
  simp only [patternArg, place_argField, ← BitVec.and_or_distrib_left]
  rfl

theorem initArg_argFields (a : Arg) :
    place 8 (argField a 8 8) ||| place 0 (argField a 0 8) = a &&& 0x0000FFFF := by
  simp only [place_argField, ← BitVec.and_or_distrib_left]
  rfl

theorem storeArg_indexField (a : Arg) : storeArg (indexField a) 0 = a &&& 0x00FFFF00 := by
  simp only [storeArg, indexField, place_argField]
  exact BitVec.or_zero

theorem storeArg_argFields (a : Arg) :
    storeArg (indexField a) (valueField a) = a &&& 0x00FFFFFF := by
  simp only [storeArg, indexField, valueField, place_argField, ← BitVec.and_or_distrib_left]
  rfl

theorem cvArg_argFields (a : Arg) :
    cvArg (cvNumberField a) (valueField a) = a &&& 0xFFFF00FF := by
  simp only [cvArg, cvNumberField, valueField, place_argField, ← BitVec.and_or_distrib_left]
  rfl

/-- The data byte of a bit manipulation is written with the bits `0b111K` above its operands (R61). -/
theorem bitArg_argFields (a : Arg) (k : Bool) :
    bitArg (cvNumberField a) (bitPosField a) (bitValField a) k =
      a &&& 0xFFFF000F ||| (place 5 0b111#3 ||| placeBit 4 k) := by
  have operands : place 16 (cvNumberField a) |||
      (placeBit 3 (bitValField a) ||| place 0 (bitPosField a)) = a &&& 0xFFFF000F := by
    simp only [cvNumberField, bitPosField, bitValField, place_argField, placeBit_argBit,
      ← BitVec.and_or_distrib_left]
    rfl
  have regroup : ∀ n x y d p : Arg,
      n ||| x ||| y ||| d ||| p = n ||| (d ||| p) ||| (x ||| y) := by intros; ac_rfl
  rw [← operands, bitArg, regroup]

theorem addressArg_argField (a : Arg) : place 0 (addressField a) = a &&& 0x000007FF :=
  place_argField a 0 11

/-! ### What the encoder writes for a decoded word -/

/-- Re-encoding a word of opcode `op` in row `r` writes an opcode of the same row with the same
operand bits, and an `arg` with the word's operand bits and, in the ignored bits, the constant
`k` (R58, R61). -/
def Row.Reencodes (r : Row) (op : Opcode) : Prop :=
  ∃ (c : Opcode) (k : Arg), r.selects c = true ∧
    c &&& opcodeOperandMask op = op &&& opcodeOperandMask op ∧ k &&& operandMask op = 0 ∧
    ∀ a, encode (r.operands op a) = assemble c (a &&& operandMask op ||| k)

/-- The formats whose ignored bits are all written as 0 (R58). -/
theorem Row.Reencodes.ofArg {r : Row} {op c : Opcode} {e : Arg → Arg}
    (hencode : ∀ a, encode (r.operands op a) = assemble c (e a))
    (harg : ∀ a, e a = a &&& operandMask op) (hrow : r.selects c = true)
    (hbits : c &&& opcodeOperandMask op = op &&& opcodeOperandMask op) : r.Reencodes op :=
  ⟨c, 0, hrow, hbits, BitVec.zero_and, fun a => by
    rw [hencode, harg]; exact congrArg _ BitVec.or_zero.symm⟩

/-- An operation whose one operand is all of `arg`. -/
theorem Row.Reencodes.wholeArg {r : Row} {op c : Opcode}
    (hencode : ∀ a, encode (r.operands op a) = assemble c a)
    (hmask : operandMask op = 0xFFFFFFFF) (hrow : r.selects c = true)
    (hbits : c &&& opcodeOperandMask op = op &&& opcodeOperandMask op) : r.Reencodes op :=
  .ofArg hencode (fun a => by rw [hmask]; exact BitVec.and_allOnes.symm) hrow hbits

/-- The bit manipulations, whose data byte carries `0b111K` in its ignored bits (R61). -/
theorem Row.Reencodes.bitCommand {r : Row} {op c : Opcode} {k : Bool}
    (hencode : ∀ a, encode (r.operands op a) =
      assemble c (bitArg (cvNumberField a) (bitPosField a) (bitValField a) k))
    (hmask : operandMask op = 0xFFFF000F) (hrow : r.selects c = true)
    (hbits : c &&& opcodeOperandMask op = op &&& opcodeOperandMask op) : r.Reencodes op := by
  refine ⟨c, place 5 0b111#3 ||| placeBit 4 k, hrow, hbits, ?_, fun a => ?_⟩
  · rw [hmask]
    cases k <;> rfl
  · rw [hencode, hmask, bitArg_argFields]

/-- A row whose mask is `0xFF` selects its pattern alone. -/
theorem forall_selected_full {P : Opcode → Prop} {name : String} {p : Opcode}
    {f : Opcode → Arg → Instr} (h : P p) :
    ∀ op, Row.selects ⟨name, 0xFF, p, f⟩ op = true → P op := by
  intro op hsel
  have all : op &&& 0xFF = op := BitVec.and_allOnes
  rwa [← all, eq_of_beq hsel]

/-- A row whose mask is `0xFE` selects two opcodes. -/
theorem forall_selected_pair {P : Opcode → Prop} {name : String} {p : Opcode}
    {f : Opcode → Arg → Instr} (h0 : P p) (h1 : P (p ||| 1)) :
    ∀ op, Row.selects ⟨name, 0xFE, p, f⟩ op = true → P op := by
  intro op hsel
  have low : ∀ op : Opcode, op = op &&& 0xFE ∨ op = op &&& 0xFE ||| 1 := by decide
  rcases low op with e | e <;> rw [e, eq_of_beq hsel] <;> assumption

/-- A row whose mask is `0xFC` selects four opcodes. -/
theorem forall_selected_quad {P : Opcode → Prop} {name : String} {p : Opcode}
    {f : Opcode → Arg → Instr} (h0 : P p) (h1 : P (p ||| 1)) (h2 : P (p ||| 2)) (h3 : P (p ||| 3)) :
    ∀ op, Row.selects ⟨name, 0xFC, p, f⟩ op = true → P op := by
  intro op hsel
  have low : ∀ op : Opcode, op = op &&& 0xFC ∨ op = op &&& 0xFC ||| 1 ∨ op = op &&& 0xFC ||| 2 ∨
      op = op &&& 0xFC ||| 3 := by decide
  rcases low op with e | e | e | e <;> rw [e, eq_of_beq hsel] <;> assumption

/-- An operation without operands is encoded with an `arg` of 0 (R58). -/
theorem selected_noOperands {name : String} {p : Opcode} {i : Instr}
    (hencode : encode i = assemble p 0) (hmask : operandMask p = 0) :
    ∀ op, Row.selects ⟨name, 0xFF, p, fun _ _ => i⟩ op = true →
      Row.Reencodes ⟨name, 0xFF, p, fun _ _ => i⟩ op := by
  refine forall_selected_full (.ofArg (fun _ => hencode) (fun a => ?_) ?_ rfl)
  · rw [hmask]
    exact BitVec.and_zero.symm
  · exact beq_of_eq BitVec.and_allOnes

/-! One term for each row, in the table's order; in unit `CV`, one goal for each opcode. -/

theorem sysTmrRows_reencode : ∀ r ∈ sysTmrRows, ∀ op, r.selects op = true → r.Reencodes op := by
  simp only [sysTmrRows, List.forall_mem_cons]
  exact ⟨selected_noOperands rfl rfl,
    selected_noOperands rfl rfl,
    forall_selected_full (.wholeArg (fun _ => rfl) rfl rfl rfl),
    selected_noOperands rfl rfl,
    selected_noOperands rfl rfl,
    selected_noOperands rfl rfl,
    selected_noOperands rfl rfl,
    selected_noOperands rfl rfl,
    List.forall_mem_nil _⟩

theorem btnRows_reencode : ∀ r ∈ btnRows, ∀ op, r.selects op = true → r.Reencodes op := by
  simp only [btnRows, List.forall_mem_cons]
  exact ⟨forall_selected_full (.ofArg (fun _ => rfl) attachArg_argFields rfl rfl),
    selected_noOperands rfl rfl,
    selected_noOperands rfl rfl,
    selected_noOperands rfl rfl,
    selected_noOperands rfl rfl,
    selected_noOperands rfl rfl,
    forall_selected_full (.wholeArg (fun _ => rfl) rfl rfl rfl),
    forall_selected_full (.wholeArg (fun _ => rfl) rfl rfl rfl),
    selected_noOperands rfl rfl,
    List.forall_mem_nil _⟩

theorem flRows_reencode : ∀ r ∈ flRows, ∀ op, r.selects op = true → r.Reencodes op := by
  simp only [flRows, List.forall_mem_cons]
  exact ⟨selected_noOperands rfl rfl,
    selected_noOperands rfl rfl,
    forall_selected_full (.ofArg (fun _ => rfl) patternArg_argFields rfl rfl),
    forall_selected_full (.ofArg (fun _ => rfl) patternArg_argFields rfl rfl),
    selected_noOperands rfl rfl,
    List.forall_mem_nil _⟩

theorem cvsRows_reencode : ∀ r ∈ cvsRows, ∀ op, r.selects op = true → r.Reencodes op := by
  simp only [cvsRows, List.forall_mem_cons]
  exact ⟨forall_selected_full (.ofArg (fun _ => rfl) initArg_argFields rfl rfl),
    selected_noOperands rfl rfl,
    selected_noOperands rfl rfl,
    forall_selected_full (.ofArg (fun _ => rfl) storeArg_indexField rfl rfl),
    forall_selected_full (.ofArg (fun _ => rfl) storeArg_argFields rfl rfl),
    selected_noOperands rfl rfl,
    selected_noOperands rfl rfl,
    List.forall_mem_nil _⟩

theorem cvAccRows_reencode : ∀ r ∈ cvAccRows, ∀ op, r.selects op = true → r.Reencodes op := by
  simp only [cvAccRows, List.forall_mem_cons]
  refine ⟨forall_selected_pair ?_ ?_, forall_selected_pair ?_ ?_, forall_selected_pair ?_ ?_,
    forall_selected_pair ?_ ?_, forall_selected_full ?_, forall_selected_full ?_,
    forall_selected_pair ?_ ?_, forall_selected_quad ?_ ?_ ?_ ?_,
    forall_selected_quad ?_ ?_ ?_ ?_, List.forall_mem_nil _⟩
  -- verify and write, two opcodes each
  iterate 8 exact .ofArg (fun _ => rfl) cvArg_argFields rfl rfl
  -- the bit manipulations
  iterate 4 exact .bitCommand (fun _ => rfl) rfl rfl rfl
  -- `CV.RSVD`, then `ACC`
  iterate 4 exact .ofArg (fun _ => rfl) cvArg_argFields rfl rfl
  iterate 4 exact .ofArg (fun _ => rfl) addressArg_argField rfl rfl

/-- Every row of the table keeps the operand bits of its words, opcode bits included (R58, R62). -/
theorem opcodeRows_reencode :
    ∀ r ∈ opcodeRows, ∀ op, r.selects op = true → r.Reencodes op := by
  intro r hr
  simp only [opcodeRows, List.mem_append] at hr
  obtain (((hr | hr) | hr) | hr) | hr := hr
  · exact sysTmrRows_reencode r hr
  · exact btnRows_reencode r hr
  · exact flRows_reencode r hr
  · exact cvsRows_reencode r hr
  · exact cvAccRows_reencode r hr

/-- Settles O2: the row that decodes the word also selects the opcode it is encoded with, and no
other row selects either of the two. -/
theorem encodeDecodeKeepsEveryOperandBit : Obligations.EncodeDecodeKeepsEveryOperandBit := by
  intro w i hdecode
  obtain ⟨r, hr, hsel, rfl⟩ := exists_row_of_decode hdecode
  obtain ⟨c, k, hc, hbits, hk, hencode⟩ := opcodeRows_reencode r hr _ hsel
  rw [hencode, opcodeOf_assemble, argOf_assemble]
  refine ⟨?_, hbits, fun r' hr' => Bool.eq_iff_iff.2 ⟨fun h => ?_, fun h => ?_⟩⟩
  · rw [BitVec.and_or_distrib_right, hk, BitVec.and_assoc, BitVec.and_self]
    exact BitVec.or_zero
  · rwa [row_eq_of_selects hr' hr h hc]
  · rwa [row_eq_of_selects hr' hr h hsel]

/-! ### Ignored bits -/

/-- The operand bits decide what an opcode's word decodes to (R58): words that agree in them are
re-encoded alike, and the encoder loses no operand. -/
theorem decodeParts_congr {op : Opcode} {a a' : Arg}
    (h : a &&& operandMask op = a' &&& operandMask op) : decodeParts op a = decodeParts op a' := by
  rcases selected_or_not op with ⟨r, hr, hsel⟩ | hnone
  · obtain ⟨c, k, -, -, -, hencode⟩ := opcodeRows_reencode r hr op hsel
    have same : r.operands op a = r.operands op a' :=
      encode_injective (by rw [hencode, hencode, h])
    rw [decodeParts_of_selects hr hsel, decodeParts_of_selects hr hsel, same]
  · rw [decodeParts_of_not_selected hnone, decodeParts_of_not_selected hnone]

/-- `OPW[32]` is ignored in the verify and write commands (R54, D33). -/
theorem decodeParts_cvPair {op : Opcode} (h : op ∈ [(0x54 : Opcode), 0x56, 0x5C, 0x5E]) (a : Arg) :
    decodeParts (op ||| 1) a = decodeParts op a := by
  simp only [List.mem_cons, List.not_mem_nil, or_false] at h
  rcases h with rfl | rfl | rfl | rfl <;> rfl

/-- `OPW[33:32]` is ignored in `CV.RSVD` (R54, D33). -/
theorem decodeParts_cvRsvd {op : Opcode} (h : op ∈ [(0x50 : Opcode), 0x51, 0x52, 0x53]) (a : Arg) :
    decodeParts op a = .instr (.cvRsvd (cvNumberField a) (valueField a)) := by
  simp only [List.mem_cons, List.not_mem_nil, or_false] at h
  rcases h with rfl | rfl | rfl | rfl <;> rfl

/-- Settles O3: the ignored bits of `arg`, then those of the opcode. -/
theorem ignoredBitsDoNotChangeDecoding : Obligations.IgnoredBitsDoNotChangeDecoding := by
  refine ⟨fun w w' hop harg => ?_, fun op a hop => ?_, fun op a hop => ?_⟩
  · rw [decode, decode, ← hop]
    exact decodeParts_congr harg
  · rw [decode_assemble, decode_assemble, decodeParts_cvPair hop]
  · rw [decode_assemble, decode_assemble, decodeParts_cvRsvd (List.mem_cons_of_mem _ hop),
      decodeParts_cvRsvd List.mem_cons_self]

/-! ### Reserved words, unit by unit -/

theorem sysTmrRows_select_iff : ∀ op : Opcode, (∃ r ∈ sysTmrRows, r.selects op = true) ↔
    (op.toNat / 16 = 0 ∧ op.toNat % 16 < 2) ∨ (op.toNat / 16 = 1 ∧ op.toNat % 16 < 6) := by decide

theorem btnRows_select_iff : ∀ op : Opcode, (∃ r ∈ btnRows, r.selects op = true) ↔
    op.toNat / 16 = 2 ∧ op.toNat % 16 < 9 := by decide

theorem flRows_select_iff : ∀ op : Opcode, (∃ r ∈ flRows, r.selects op = true) ↔
    op.toNat / 16 = 3 ∧ op.toNat % 16 < 5 := by decide

theorem cvsRows_select_iff : ∀ op : Opcode, (∃ r ∈ cvsRows, r.selects op = true) ↔
    op.toNat / 16 = 4 ∧ op.toNat % 16 < 7 := by decide

theorem cvAccRows_select_iff : ∀ op : Opcode, (∃ r ∈ cvAccRows, r.selects op = true) ↔
    op.toNat / 16 = 5 ∨ (op.toNat / 16 = 6 ∧ op.toNat % 16 < 4) := by decide

theorem mem_cvRsvd_opcodes : ∀ op : Opcode, op.toNat / 16 = 5 ∧ op.toNat % 16 < 4 →
    op ∈ [(0x50 : Opcode), 0x51, 0x52, 0x53] := by decide

/-- The opcodes that have a row, by their `unit` and `fn` nibbles (R48 to R55). -/
theorem opcodeRows_select_iff (op : Opcode) : (∃ r ∈ opcodeRows, r.selects op = true) ↔
    (op.toNat / 16 = 0 ∧ op.toNat % 16 < 2) ∨ (op.toNat / 16 = 1 ∧ op.toNat % 16 < 6) ∨
    (op.toNat / 16 = 2 ∧ op.toNat % 16 < 9) ∨ (op.toNat / 16 = 3 ∧ op.toNat % 16 < 5) ∨
    (op.toNat / 16 = 4 ∧ op.toNat % 16 < 7) ∨ op.toNat / 16 = 5 ∨
    (op.toNat / 16 = 6 ∧ op.toNat % 16 < 4) := by
  simp only [opcodeRows, List.mem_append, or_and_right, exists_or, sysTmrRows_select_iff,
    btnRows_select_iff, flRows_select_iff, cvsRows_select_iff, cvAccRows_select_iff, or_assoc]

end Sys2Proof

namespace Sys2Proof.Machine

/-- `CV.RSVD` is dropped like a word without a row (R123; log 7). -/
theorem issue_cvRsvd {r : Request} (h : opcodeOf r.word ∈ [(0x50 : Opcode), 0x51, 0x52, 0x53])
    (s : State) : issue r s = .next (dropped (present r s)) :=
  issue_instr (decodeParts_cvRsvd h (argOf r.word)) s

/-- A word that no row selects is dropped (R57). -/
theorem issue_not_selected {r : Request}
    (h : ¬ ∃ row ∈ opcodeRows, row.selects (opcodeOf r.word) = true) (s : State) :
    issue r s = .next (dropped (present r s)) :=
  issue_reserved (decodeParts_of_not_selected ((selected_or_not _).resolve_left h) _) s

/-- Settles O5: a reserved opcode has no row or is one of the four of `CV.RSVD`, and every other
opcode has a row. -/
theorem reservedWordsAreDropped : Obligations.ReservedWordsAreDropped := by
  intro r s unit fn isReserved
  have rows := opcodeRows_select_iff (opcodeOf r.word)
  constructor
  · intro hreserved
    change issue r s = .next (dropped (present r s))
    by_cases hcv : unit = 5
    · exact issue_cvRsvd (mem_cvRsvd_opcodes _ ⟨hcv, by omega⟩) s
    · exact issue_not_selected (by rw [rows]; omega) s
  · intro hlegal
    obtain ⟨row, hrow, hsel⟩ := rows.2 (by omega)
    exact ⟨_, decodeParts_of_selects hrow hsel _⟩

end Sys2Proof.Machine

namespace Sys2Proof

/-! ### Words the spec writes out -/

/-- Settles O4, by running the decoder on each word. -/
theorem sampleWordsDecodeAsTheSpecAssembles :
    Obligations.SampleWordsDecodeAsTheSpecAssembles := by
  unfold Obligations.SampleWordsDecodeAsTheSpecAssembles
  decide

end Sys2Proof
end

section
/-! PROOFS of the family `40_timer.md`: what each `TMR` operation does to the user timer (R64 to R69),
and that a disarmed user timer stays disarmed and silent until an operation arms it (R65, R67, R70). -/

namespace Sys2Proof

/-! ### Words of the unit -/

theorem decode_of_opcode {w : OpWord} {op : Opcode} (h : opcodeOf w = op) :
    decode w = decodeParts op (argOf w) := by
  rw [decode, h]

end Sys2Proof

namespace Sys2Proof.Machine

/-! ### Arming -/

/-- Setting a timer turns on the duration the register then holds, its `CLK_BITS` low bits (R64, R50). -/
theorem setTime_eq_ite (p : Params) (now : Nat) (t : Timer) (d : Nat) :
    setTime p now t d =
      if 0 < clkLow p d then ⟨true, clkLow p d, now⟩ else ⟨false, 0, t.startTime⟩ := by
  rcases setTime_cases p now t d with ⟨hpos, e⟩ | ⟨hzero, e⟩ <;> rw [e]
  · rw [if_pos hpos]
  · rw [if_neg hzero.not_gt]

/-- Arming again with a duration that fits the register uses it as it stands (R68, D3). -/
theorem startTimer_eq_ite {p : Params} {t : Timer} (h : t.duration < 2 ^ p.clkBits) (now : Nat) :
    startTimer p now t =
      if 0 < t.duration then ⟨true, t.duration, now⟩ else { t with armed := false } := by
  rw [startTimer, setTime_eq_ite, clkLow_of_lt h]
  split
  · rfl
  · next hzero => rw [← Nat.eq_zero_of_not_pos hzero]

/-- Settles O24, by the two cases of `setTime` on the user timer. -/
theorem setTimeArmsOrDisarms : Obligations.SetTimeArmsOrDisarms := by
  refine ⟨fun w h => decode_of_opcode h, fun duration s => ?_⟩
  calc exec (.tmrSettime duration) s
      = .next { opStart s with tu := setTime s.cfg s.now s.tu duration.toNat } := rfl
    _ = _ := by rw [setTime_eq_ite]; rfl

/-- Settles O28: both operations are `start` on the user timer. -/
theorem startAndRestartArmWithTheSetDuration :
    Obligations.StartAndRestartArmWithTheSetDuration := by
  refine ⟨fun w => ⟨fun h => decode_of_opcode h, fun h => decode_of_opcode h⟩,
    fun s hfits i hi => ?_⟩
  have starts : exec i s = .next { opStart s with tu := startTimer s.cfg s.now s.tu } := by
    simp only [List.mem_cons, List.not_mem_nil, or_false] at hi
    rcases hi with rfl | rfl <;> rfl
  rw [starts, startTimer_eq_ite hfits]
  rfl

/-! ### The two queries -/

theorem exec_tmrExpired_of_fires {s : State} (h : firesNow s.cfg s.now s.tu = true) :
    exec .tmrExpired s = .next
      { s with tu := { s.tu with armed := false }, rsp := 1, events := [] } := by
  change Host.Outcome.next (respondBool _ _) = _
  rw [h, expire, if_pos h]
  rfl

theorem exec_tmrExpired_of_not_fires {s : State} (h : firesNow s.cfg s.now s.tu = false) :
    exec .tmrExpired s = .next { s with rsp := 0, events := [] } := by
  change Host.Outcome.next (respondBool _ _) = _
  rw [h, expire, h]
  rfl

theorem isRunning_iff (p : Params) (now : Nat) (t : Timer) :
    isRunning p now t = true ↔ t.armed = true ∧ clkSub p now t.startTime < t.duration := by
  simp [isRunning, hasElapsed]

/-- Settles O25: the answer and the disarming are decided by the one test (R65). -/
theorem expiredFiresAndDisarms : Obligations.ExpiredFiresAndDisarms := by
  refine ⟨fun w h => decode_of_opcode h, fun s => ?_⟩
  split
  · next fires => exact exec_tmrExpired_of_fires ((firesNow_iff ..).2 fires)
  · next silent =>
    exact exec_tmrExpired_of_not_fires (Bool.eq_false_iff.2 (mt (firesNow_iff ..).1 silent))

/-- Settles O26: the query answers by `isRunning` and starts from a state it does not change. -/
theorem runningReportsArmedAndNotElapsed : Obligations.RunningReportsArmedAndNotElapsed := by
  refine ⟨fun w h => decode_of_opcode h, fun s => ?_⟩
  have answer : (isRunning s.cfg s.now s.tu).toNat =
      if s.tu.armed = true ∧ clkSub s.cfg s.now s.tu.startTime < s.tu.duration then 1 else 0 := by
    rw [Bool.toNat, Bool.cond_eq_ite]
    simp only [isRunning_iff]
  calc exec .tmrRunning s
      = .next { s with rsp := (isRunning s.cfg s.now s.tu).toNat, events := [] } := rfl
    _ = _ := by rw [answer]

/-! ### A disarmed timer -/

section Disarmed
variable {s t : State} (hoff : s.tu.armed = false)
include hoff

/-- Either query of a disarmed timer answers 0 (R65, R66). -/
theorem query_of_disarmed {i : Instr} (hi : i = .tmrExpired ∨ i = .tmrRunning) :
    ∃ v, exec i s = .next v ∧ v.rsp = 0 := by
  rcases hi with rfl | rfl
  · exact ⟨_, exec_tmrExpired_of_not_fires (by simp [firesNow, hoff]), rfl⟩
  · exact ⟨_, rfl, by simp [isRunning, hoff]⟩

theorem expire_of_disarmed (p : Params) (now : Nat) : (expire p now s.tu).armed = false := by
  rcases expire_cases p now s.tu with ⟨-, e⟩ | ⟨-, e⟩ <;> rw [e]
  exact hoff

/-- The session's part of a tick leaves the user timer alone or resets it (R130, R153). -/
theorem sessionTick_keeps_disarmed : (sessionTick s).tu.armed = false := by
  rcases sessionTick_cases s with ⟨-, -, e⟩ | ⟨-, -, e⟩ | ⟨-, -, e⟩ | ⟨-, -, e⟩ | ⟨-, -, e⟩ |
    ⟨-, -, -, -, e⟩ <;> rw [e]
  case inr.inl | inr.inr.inr.inr.inl => rw [reboot_tu]; rfl
  all_goals exact hoff

theorem tick_keeps_disarmed : (tick s).tu.armed = false := by
  have sampled : (buttonRead (opStart s)).tu.armed = false := hoff
  rcases tick_cases s with ⟨-, e⟩ | ⟨-, e⟩ <;> rw [e] <;> exact sessionTick_keeps_disarmed sampled

/-- A CV write leaves the user timer alone or resets it (R119, R153). -/
theorem writeByte_keeps_disarmed (idx : Nat) (v : Byte) (mode : CvMode) :
    (writeByte idx v mode s).tu.armed = false := by
  rcases writeByte_cases idx v mode s with ⟨-, e⟩ | ⟨-, -, e⟩ | ⟨-, -, e⟩ | ⟨-, -, e⟩ |
    ⟨-, -, e⟩ | ⟨-, -, e⟩ | ⟨-, -, e⟩ | ⟨-, -, -, -, e⟩ <;> rw [e]
  case inr.inl | inr.inr.inr.inl => rw [reboot_tu]; rfl
  case inr.inr.inr.inr.inr.inr.inr => rwa [ackIn_tu, memWrite_tu]
  all_goals exact hoff

/-- Only the three arming operations arm: every other effect leaves the user timer alone, disarms it
or resets it (R18, R70). -/
theorem exec_keeps_disarmed {i : Instr} (hset : ∀ d, i ≠ .tmrSettime d) (hstart : i ≠ .tmrStart)
    (hrestart : i ≠ .tmrRestart) (h : exec i s = .next t) : t.tu.armed = false := by
  cases exec_effect h with
  | timerSet duration => exact absurd rfl (hset duration)
  | timerStart hi => exact absurd hi (not_or.2 ⟨hstart, hrestart⟩)
  | timerStop => rfl
  | timerExpired => exact expire_of_disarmed hoff s.cfg s.now
  | tick => exact tick_keeps_disarmed hoff
  | cvWrite mode => exact writeByte_keeps_disarmed (s := opStart s) hoff _ _ mode
  | factoryReset => rwa [setDefaults_tu]
  | _ => exact hoff

end Disarmed

/-! ### Runs without arming -/

/-- The request is none of the three operations that arm the user timer (R64, R68, R69). -/
def ArmsNothing (q : Request) : Prop :=
  (∀ d, decode q.word ≠ .instr (.tmrSettime d)) ∧
  decode q.word ≠ .instr .tmrStart ∧ decode q.word ≠ .instr .tmrRestart

theorem ArmsNothing.issue_keeps_disarmed {q : Request} (hq : ArmsNothing q) {s t : State}
    (hoff : s.tu.armed = false) (h : issue q s = .next t) : t.tu.armed = false := by
  obtain ⟨hset, hstart, hrestart⟩ := hq
  cases hd : decode q.word with
  | instr i =>
    rw [hd] at hset hstart hrestart
    rw [issue_instr hd] at h
    exact exec_keeps_disarmed (s := present q s) hoff (fun d e => hset d (e ▸ rfl))
      (fun e => hstart (e ▸ rfl)) (fun e => hrestart (e ▸ rfl)) h
  | reserved why =>
    rw [issue_reserved hd] at h
    cases h
    exact hoff

theorem runRequests_keeps_disarmed {rs : List Request} (hrs : ∀ q ∈ rs, ArmsNothing q)
    {s t : State} (hoff : s.tu.armed = false) (h : runRequests rs s = .next t) :
    t.tu.armed = false := by
  induction rs generalizing s with
  | nil => cases h; exact hoff
  | cons q rest ih =>
    obtain ⟨u, hissue, hrun⟩ := runRequests_cons_next.1 h
    obtain ⟨hq, hrest⟩ := List.forall_mem_cons.1 hrs
    exact ih hrest (hq.issue_keeps_disarmed hoff hissue) hrun

/-- Once the user timer is disarmed, either query after any run without an arming operation answers
0 (R65 to R67, R70 (b)). -/
theorem query_after_run_of_disarmed {rs : List Request} (hrs : ∀ q ∈ rs, ArmsNothing q)
    {s t : State} (hoff : s.tu.armed = false) (hrun : runRequests rs s = .next t) {r : Request}
    (hr : decode r.word = .instr .tmrExpired ∨ decode r.word = .instr .tmrRunning) :
    ∃ v, issue r t = .next v ∧ v.rsp = 0 := by
  have still_off : t.tu.armed = false := runRequests_keeps_disarmed hrs hoff hrun
  rcases hr with hd | hd <;> rw [issue_instr hd]
  · exact query_of_disarmed (s := present r t) still_off (.inl rfl)
  · exact query_of_disarmed (s := present r t) still_off (.inr rfl)

/-- Settles O27: `TMR.STOP` disarms, and no run without an arming operation undoes it. -/
theorem stopDisarmsWithoutSignalling : Obligations.StopDisarmsWithoutSignalling := by
  refine ⟨fun w h => decode_of_opcode h, fun s => rfl, fun s t u rs r hstop hrs hrun hr => ?_⟩
  have stopped : t.tu.armed = false := by cases hstop; rfl
  exact query_after_run_of_disarmed hrs stopped hrun hr

/-- `TMR.EXPIRED` leaves the timer disarmed where it answers 1 (R65). -/
theorem disarmed_of_tmrExpired_answers_one {s t : State} (h : exec .tmrExpired s = .next t)
    (hone : t.rsp = 1) : t.tu.armed = false := by
  cases hf : firesNow s.cfg s.now s.tu with
  | true => rw [exec_tmrExpired_of_fires hf] at h; cases h; rfl
  | false => rw [exec_tmrExpired_of_not_fires hf] at h; cases h; cases hone

/-- Settles O30: the answer 1 has disarmed the timer, and no run without an arming operation undoes
it. -/
theorem timerFiresAtMostOncePerArming : Obligations.TimerFiresAtMostOncePerArming := by
  intro s t u rs r hexp hone hrs hrun hr
  exact query_after_run_of_disarmed hrs (disarmed_of_tmrExpired_answers_one hexp hone) hrun
    (.inl hr)

end Sys2Proof.Machine
end

section
/-! PROOFS of the family `41_button.md`: the debounce rule of a read and what follows from it (R74,
R81, R82), the attach (R73), the queries (R75 to R80), and the refusals by name, a button operation
before the attach among them (R72). -/

namespace Sys2Proof.Machine

/-! ### The debounce rule -/

/-- The rule of R74 in one equation: outside the window the sample is taken, and what it differs in
from the accepted state says whether the change time moves and the toggle flips. -/
theorem readButton_eq_ite (p : Params) (now : Nat) (raw : Bool) (b : Button) :
    readButton p now raw b =
      if clkSub p now b.lastChangeTime < b.debounce.toNat then { b with changed := false }
      else
        { b with
            previousState := b.currentState, currentState := sampleOf b raw
            changed := sampleOf b raw != b.currentState
            lastChangeTime := if sampleOf b raw != b.currentState then now else b.lastChangeTime
            toggleState :=
              if sampleOf b raw && !b.currentState then !b.toggleState else b.toggleState } := by
  rcases readButton_cases p now raw b with ⟨inside, e⟩ | ⟨outside, edge, e⟩ | ⟨outside, same, e⟩
  · rw [e, if_pos (show clkSub p now b.lastChangeTime < _ from inside)]
  · have press : (sampleOf b raw && !b.currentState) = sampleOf b raw := by
      rw [Bool.eq_not_of_ne edge, Bool.and_self]
    have differs : (sampleOf b raw != b.currentState) = true := bne_iff_ne.2 edge
    rw [e, if_neg (show ¬ clkSub p now b.lastChangeTime < _ from outside.not_gt), press, differs,
      if_pos rfl]
  · rw [e, if_neg (show ¬ clkSub p now b.lastChangeTime < _ from outside.not_gt), same]
    simp

/-- A press is reported after a read exactly if that read accepted it (R74, R77). -/
theorem wasPressed_readButton_iff (p : Params) (now : Nat) (raw : Bool) (b : Button) :
    wasPressed (readButton p now raw b) = true ↔
      b.debounce.toNat ≤ clkSub p now b.lastChangeTime ∧ sampleOf b raw = true ∧
        b.currentState = false := by
  rcases readButton_cases p now raw b with ⟨inside, e⟩ | ⟨outside, edge, e⟩ | ⟨-, same, e⟩ <;> rw [e]
  · have : ¬ b.debounce.toNat ≤ clkSub p now b.lastChangeTime := Nat.not_le.2 inside
    simp [wasPressed, this]
  · have : b.debounce.toNat ≤ clkSub p now b.lastChangeTime := outside
    have released : b.currentState = !sampleOf b raw := Bool.eq_not_of_ne edge.symm
    simp [wasPressed, this, released]
  · simp [wasPressed, same]

/-! ### The two reading operations -/

section Attached
variable {s : State} (ha : s.btn.attached = true)
include ha

theorem exec_btnRead_of_attached :
    exec .btnRead s = .next
      { s with
          btn := readButton s.cfg s.now s.raw s.btn
          rsp := (readButton s.cfg s.now s.raw s.btn).currentState.toNat, events := [] } :=
  whenAttached_next.2 ⟨ha, rfl⟩

theorem exec_btnTglread_of_attached :
    exec .btnTglread s = .next
      { s with
          btn := readButton s.cfg s.now s.raw s.btn
          rsp := (readButton s.cfg s.now s.raw s.btn).toggleState.toNat, events := [] } :=
  whenAttached_next.2 ⟨ha, rfl⟩

/-- A query answers its condition as 1 or 0 and changes no state (R72, R59). -/
theorem buttonQuery_of_iff {answer : Bool} {P : Prop} [Decidable P] (h : answer = true ↔ P) :
    buttonQuery answer s = .next { s with rsp := if P then 1 else 0, events := [] } := by
  have number : answer.toNat = if P then 1 else 0 := by
    rw [Bool.toNat, Bool.cond_eq_ite]
    simp only [h]
  rw [← number]
  exact whenAttached_next.2 ⟨ha, rfl⟩

end Attached

/-- Settles O33: both operations evaluate the rule once and answer one element of its result. -/
theorem readFollowsTheDebounceRule : Obligations.ReadFollowsTheDebounceRule := by
  refine ⟨fun w => ⟨fun h => decode_of_opcode h, fun h => decode_of_opcode h⟩, ?_⟩
  intro s ha b sample b'
  have rule : readButton s.cfg s.now s.raw s.btn = b' := readButton_eq_ite ..
  rw [← rule]
  exact ⟨exec_btnRead_of_attached ha, exec_btnTglread_of_attached ha⟩

/-! ### Reads inside the window -/

/-- A request that reads the button at a clock value inside its debounce window (R74, R81). -/
def ReadsInWindow (p : Params) (b : Button) (r : Request) : Prop :=
  (decode r.word = .instr .btnRead ∨ decode r.word = .instr .btnTglread) ∧
    clkSub p (clkLow p r.now) b.lastChangeTime < b.debounce.toNat

/-- One read inside the window completes and clears `changed` alone (R74, C2). -/
theorem ReadsInWindow.issue {s : State} {r : Request} (hr : ReadsInWindow s.cfg s.btn r)
    (ha : s.btn.attached = true) :
    ∃ t, issue r s = .next t ∧ t.cfg = s.cfg ∧ t.btn = { s.btn with changed := false } := by
  obtain ⟨hd, hwindow⟩ := hr
  have rejected : readButton s.cfg (clkLow s.cfg r.now) r.raw s.btn =
      { s.btn with changed := false } := by rw [readButton_eq_ite, if_pos hwindow]
  rcases hd with hd | hd <;> rw [issue_instr hd]
  · exact ⟨_, exec_btnRead_of_attached (s := present r s) ha, rfl, rejected⟩
  · exact ⟨_, exec_btnTglread_of_attached (s := present r s) ha, rfl, rejected⟩

/-- Once `changed` is 0, reads inside the window leave the button as it is. -/
theorem runRequests_in_window {rs : List Request} {s : State} (ha : s.btn.attached = true)
    (hc : s.btn.changed = false) (hrs : ∀ r ∈ rs, ReadsInWindow s.cfg s.btn r) :
    ∃ t, runRequests rs s = .next t ∧ t.btn = s.btn := by
  induction rs generalizing s with
  | nil => exact ⟨s, rfl, rfl⟩
  | cons r rest ih =>
    obtain ⟨hr, hrest⟩ := List.forall_mem_cons.1 hrs
    obtain ⟨u, hissue, hcfg, hbtn⟩ := hr.issue ha
    have unchanged : u.btn = s.btn := by rw [hbtn, ← hc]
    rw [← unchanged] at ha hc
    rw [← unchanged, ← hcfg] at hrest
    obtain ⟨t, hrun, ht⟩ := ih ha hc hrest
    exact ⟨t, runRequests_cons_next.2 ⟨u, hissue, hrun⟩, ht.trans unchanged⟩

/-- Settles O36: the first read clears `changed`, and the window of the others is the same, since no
rejected sample moves the change time (R82 (d)). -/
theorem readsInsideTheWindowAcceptNothing : Obligations.ReadsInsideTheWindowAcceptNothing := by
  intro rs s hne ha hrs
  cases rs with
  | nil => exact absurd rfl hne
  | cons r rest =>
    obtain ⟨hr, hrest⟩ := List.forall_mem_cons.1 hrs
    obtain ⟨u, hissue, hcfg, hbtn⟩ := ReadsInWindow.issue hr ha
    have window : ∀ q ∈ rest, ReadsInWindow u.cfg u.btn q := by
      rw [hcfg, hbtn]
      exact hrest
    obtain ⟨t, hrun, ht⟩ := runRequests_in_window (hbtn ▸ ha) (hbtn ▸ rfl) window
    exact ⟨t, runRequests_cons_next.2 ⟨u, hissue, hrun⟩, ht.trans hbtn⟩

/-! ### The report of a press -/

theorem exec_btnRead_btn {s t : State} (h : exec .btnRead s = .next t) :
    t.btn = readButton s.cfg s.now s.raw s.btn := by
  obtain ⟨-, rfl⟩ := whenAttached_next.1 h
  rfl

theorem exec_btnWaspressed_rsp {s t : State} (h : exec .btnWaspressed s = .next t) :
    t.rsp = (wasPressed s.btn).toNat := by
  obtain ⟨-, rfl⟩ := whenAttached_next.1 h
  rfl

/-- `BTN.WASPRESSED` after a read answers 1 exactly if that read accepted a press (R82 (b)). -/
theorem waspressed_after_read_iff {s t u : State} (hread : exec .btnRead s = .next t)
    (hquery : exec .btnWaspressed t = .next u) :
    u.rsp = 1 ↔ s.btn.debounce.toNat ≤ clkSub s.cfg s.now s.btn.lastChangeTime ∧
      sampleOf s.btn s.raw = true ∧ s.btn.currentState = false := by
  rw [exec_btnWaspressed_rsp hquery, Bool.toNat_eq_one, exec_btnRead_btn hread,
    wasPressed_readButton_iff]

/-- Settles O37: a reported press leaves the accepted state pressed, and from there the next read
accepts no press. -/
theorem pressIsReportedByExactlyOneRead : Obligations.PressIsReportedByExactlyOneRead := by
  intro s t t' u u' now raw hread hquery
  refine ⟨waspressed_after_read_iff hread hquery, fun hread' hquery' hone => ?_⟩
  have reported : wasPressed t.btn = true := by
    rwa [exec_btnWaspressed_rsp hquery, Bool.toNat_eq_one] at hone
  have held : t.btn.currentState = true := (Bool.and_eq_true_iff.1 reported).1
  have silent : u'.rsp ≠ 1 := fun h =>
    have ⟨_, _, released⟩ := (waspressed_after_read_iff hread' hquery').1 h
    Bool.false_ne_true (released.symm.trans held)
  have bit : u'.rsp ≤ 1 := by
    rw [exec_btnWaspressed_rsp hquery']
    exact Bool.toNat_le _
  omega

/-! ### Refusals -/

theorem whenAttached_refused {s : State} (h : s.btn.attached = false) (t : State) :
    whenAttached s t = .refused .buttonNotAttached := by
  simp [whenAttached, h]

theorem whenBooted_refused {s : State} (h : booted s = false) (t : State) :
    whenBooted s t = .refused .notBooted := by
  simp [whenBooted, h]

/-- A 0 in a field that the timed mode uses makes the host's pattern refused (R85). -/
theorem hostConfigure_refused {m : FlashMode} (hm : m = .singleBurst ∨ m = .continuousBursts)
    {q : Pattern} (hzero : q.on.toNat = 0 ∨ q.count.toNat = 0 ∨
      (1 < q.count.toNat ∧ q.off.toNat = 0) ∨ (m = .continuousBursts ∧ q.pause.toNat = 0))
    (s : State) : hostConfigure m q s = .refused .flashFieldZero := by
  have unusable : ¬ patternUsable m q = true := by
    rw [patternUsable_timed hm]
    rintro ⟨on, count, off, pause⟩
    rcases hzero with h | h | ⟨several, h⟩ | ⟨cont, h⟩
    · exact (toNat_pos_of_ne_zero on).ne' h
    · exact (toNat_pos_of_ne_zero count).ne' h
    · exact (toNat_pos_of_ne_zero (off several)).ne' h
    · exact (toNat_pos_of_ne_zero (pause cont)).ne' h
  exact if_neg unusable

/-- Settles O14: every operation of a clause goes through the one check that the clause is about. -/
theorem improperUseIsRefusedByName : Obligations.ImproperUseIsRefusedByName := by
  intro s
  refine ⟨fun detached => ⟨?_, fun ms => ?_⟩, fun unbooted => ?_, fun uninit => ?_,
    fun index v above => ?_, fun on off count pause => ⟨fun hzero => ?_, fun hzero => ?_⟩⟩
  · simp only [List.forall_mem_cons, List.not_mem_nil, IsEmpty.forall_iff, implies_true, and_true]
    have refused := whenAttached_refused detached
    exact ⟨refused _, refused _, refused _, refused _, refused _, refused _⟩
  · exact ⟨whenAttached_refused detached _, whenAttached_refused detached _⟩
  · have refused := whenBooted_refused unbooted
    exact ⟨refused _, fun n v => ⟨refused _, refused _, refused _, refused _⟩,
      fun n p d k => ⟨refused _, refused _, refused _⟩, fun a m b => refused _⟩
  · exact if_neg (Bool.eq_false_iff.1 uninit)
  · exact ⟨if_pos above, if_pos above⟩
  · exact hostConfigure_refused (.inl rfl) (hzero.imp_right (.imp_right .inl)) s
  · exact hostConfigure_refused (.inr rfl)
      (hzero.imp_right (.imp_right (.imp_right (.intro rfl)))) s

/-! ### The attach and the queries -/

/-- Settles O32: the operation replaces the button by the freshly attached one. -/
theorem attachConfiguresAndSamples : Obligations.AttachConfiguresAndSamples := by
  refine ⟨fun w h => decode_of_opcode h, fun pin debounceTime pullup invert s => ?_⟩
  calc exec (.btnAttach pin debounceTime pullup invert) s
      = .next { opStart s with
          btn := attachButton pin debounceTime pullup invert s.now s.raw } := rfl
    _ = _ := rfl

theorem wasPressed_iff (b : Button) :
    wasPressed b = true ↔ b.currentState = true ∧ b.changed = true := by
  simp [wasPressed]

theorem wasReleased_iff (b : Button) :
    wasReleased b = true ↔ b.currentState = false ∧ b.changed = true := by
  simp [wasReleased]

theorem pressedFor_iff (p : Params) (now : Nat) (b : Button) (ms : Nat) :
    pressedFor p now b ms = true ↔ b.currentState = true ∧ ms ≤ clkSub p now b.lastChangeTime := by
  rw [pressedFor, Bool.and_eq_true, decide_eq_true_iff, sinceChange]

theorem releasedFor_iff (p : Params) (now : Nat) (b : Button) (ms : Nat) :
    releasedFor p now b ms = true ↔
      b.currentState = false ∧ ms ≤ clkSub p now b.lastChangeTime := by
  rw [releasedFor, Bool.and_eq_true, Bool.not_eq_true', decide_eq_true_iff, sinceChange]

/-- Settles O34: each is a query whose condition is spelled out. -/
theorem buttonQueriesReportTheAcceptedState : Obligations.ButtonQueriesReportTheAcceptedState := by
  refine ⟨fun w => ⟨fun h => decode_of_opcode h, fun h => decode_of_opcode h,
    fun h => decode_of_opcode h, fun h => decode_of_opcode h⟩, fun s ha => ⟨?_, ?_, ?_, ?_⟩⟩
  · exact buttonQuery_of_iff ha Iff.rfl
  · rw [← ite_not]
    exact buttonQuery_of_iff ha Bool.not_iff_not
  · exact buttonQuery_of_iff ha (wasPressed_iff s.btn)
  · exact buttonQuery_of_iff ha (wasReleased_iff s.btn)

/-- Settles O35: both durations are measured by the one modular difference. -/
theorem durationQueriesMeasureFromTheAcceptedChange :
    Obligations.DurationQueriesMeasureFromTheAcceptedChange := by
  refine ⟨fun w => ⟨fun h => decode_of_opcode h, fun h => decode_of_opcode h⟩,
    fun ms s ha => ⟨?_, ?_⟩⟩
  · exact buttonQuery_of_iff ha (pressedFor_iff s.cfg s.now s.btn (clkLow s.cfg ms.toNat))
  · exact buttonQuery_of_iff ha (releasedFor_iff s.cfg s.now s.btn (clkLow s.cfg ms.toNat))

end Sys2Proof.Machine
end

section
/-! PROOFS of the family `42_flash.md`: the requests that force or start a pattern (R86 to R89), the
update clause by clause (R90), and the waveform that updates at the tick rate produce (R91). The
waveform is read off the place of the engine in its pattern (`InPhase`), which each time step moves on
by one. -/

namespace Sys2Proof.Machine

/-! ### The requests -/

/-- Settles O38: both requests set mode and level and start from a state they do not change. -/
theorem steadyRequestsForceTheIndicator : Obligations.SteadyRequestsForceTheIndicator :=
  ⟨fun _ => ⟨fun h => decode_of_opcode h, fun h => decode_of_opcode h⟩, fun _ => ⟨rfl, rfl⟩⟩

theorem ne_zero_of_one_le_toNat {b : Byte} (h : 1 ≤ b.toNat) : b ≠ 0 := by
  rintro rfl
  exact absurd h (by decide)

/-- The legal operands of R85, as numbers, make a pattern usable in the timed mode `m`. -/
theorem patternUsable_of_one_le {m : FlashMode} (hm : m = .singleBurst ∨ m = .continuousBursts)
    {q : Pattern} (hon : 1 ≤ q.on.toNat) (hcount : 1 ≤ q.count.toNat)
    (hoff : 1 < q.count.toNat → 1 ≤ q.off.toNat)
    (hpause : m = .continuousBursts → 1 ≤ q.pause.toNat) : patternUsable m q = true :=
  (patternUsable_timed hm).2 ⟨ne_zero_of_one_le_toNat hon, ne_zero_of_one_le_toNat hcount,
    fun several => ne_zero_of_one_le_toNat (hoff several),
    fun cont => ne_zero_of_one_le_toNat (hpause cont)⟩

/-- Settles O39: the operands pass the host's check, and the engine is configured afresh. -/
theorem configureStartsThePattern : Obligations.ConfigureStartsThePattern := by
  refine ⟨fun w => ⟨fun h => decode_of_opcode h, fun h => decode_of_opcode h⟩,
    fun on off count pause s hon hcount hoff => ⟨?_, fun hpause => ?_⟩⟩
  · exact hostConfigure_next.2 ⟨patternUsable_of_one_le (.inl rfl) hon hcount hoff nofun, rfl⟩
  · exact hostConfigure_next.2
      ⟨patternUsable_of_one_le (.inr rfl) hon hcount hoff fun _ => hpause, rfl⟩

/-! ### One update -/

/-- A time step in one equation: count down, and at zero toggle and choose the next interval, the
gap, the end, the pause or the next flash (R90, D13). -/
theorem timeStep_eq_ite (now : Nat) (f : Flash) :
    timeStep now f =
      if f.ticksRemaining - 1 ≠ 0 then
        { f with lastTick := now, ticksRemaining := f.ticksRemaining - 1 }
      else if f.led = true then
        if (f.burstsSoFar + 1).toNat < f.burstCount.toNat then
          { f with lastTick := now, led := false, burstsSoFar := f.burstsSoFar + 1,
                   ticksRemaining := f.offTicks }
        else if f.mode = .singleBurst then
          { f with lastTick := now, led := false, burstsSoFar := f.burstsSoFar + 1,
                   ticksRemaining := 0, mode := .alwaysOff }
        else
          { f with lastTick := now, led := false, burstsSoFar := f.burstsSoFar + 1,
                   ticksRemaining := f.pauseTicks }
      else
        { f with
            lastTick := now, led := true, ticksRemaining := f.onTicks
            burstsSoFar := if f.burstCount.toNat ≤ f.burstsSoFar.toNat then 0
                           else f.burstsSoFar } := by
  rcases timeStep_cases now f with ⟨running, e⟩ | ⟨elapsed, lit, more, e⟩ |
    ⟨elapsed, lit, last, single, e⟩ | ⟨elapsed, lit, last, cont, e⟩ | ⟨elapsed, dark, last, e⟩ |
    ⟨elapsed, dark, more, e⟩ <;> rw [e]
  · rw [if_pos running]
  · rw [if_neg (not_not.2 elapsed), if_pos lit, if_pos more]
  · rw [if_neg (not_not.2 elapsed), if_pos lit, if_neg last.not_gt, if_pos single]
  · rw [if_neg (not_not.2 elapsed), if_pos lit, if_neg last.not_gt, if_neg cont]
  · rw [if_neg (not_not.2 elapsed), if_neg (Bool.eq_false_iff.1 dark), if_pos last]
  · rw [if_neg (not_not.2 elapsed), if_neg (Bool.eq_false_iff.1 dark), if_neg more.not_ge]

theorem updateFlash_of_steady {f : Flash} (h : timedMode f = false) (p : Params) (now : Nat) :
    updateFlash p now f = f := by
  simp [updateFlash, h]

theorem updateFlash_of_early {p : Params} {now : Nat} {f : Flash}
    (h : clkSub p now f.lastTick < p.tickMs) : updateFlash p now f = f := by
  simp [updateFlash, h]

theorem updateFlash_of_due {p : Params} {now : Nat} {f : Flash} (hm : timedMode f = true)
    (h : p.tickMs ≤ clkSub p now f.lastTick) : updateFlash p now f = timeStep now f := by
  simp [updateFlash, hm, h.not_gt]

theorem exec_flUpdate (s : State) :
    exec .flUpdate s = .next
      { s with
          fl := updateFlash s.cfg s.now s.fl
          rsp := (updateFlash s.cfg s.now s.fl).led.toNat, events := [] } := rfl

/-- Settles O40: an update that is due is one time step, and each clause names one branch of it. -/
theorem updateAdvancesOneTimeStep : Obligations.UpdateAdvancesOneTimeStep := by
  refine ⟨fun w h => decode_of_opcode h, ?_⟩
  intro s f rest done timed due answers
  have answers_of : ∀ {g}, updateFlash s.cfg s.now f = g → answers g := by
    rintro _ rfl
    exact exec_flUpdate s
  have answers_step : ∀ {g}, timed → due → timeStep s.now f = g → answers g :=
    fun ht hd e => answers_of ((updateFlash_of_due ((timedMode_iff f).2 ht) hd).trans e)
  refine ⟨fun steady => ?_, fun _ early => ?_, fun ht hd running => ?_,
    fun ht hd elapsed lit more => ?_, fun single hd elapsed lit last => ?_,
    fun cont hd elapsed lit last => ?_, fun ht hd elapsed dark => ?_⟩
  · have untimed := Bool.eq_false_iff.2 (mt (timedMode_iff f).1 steady)
    exact answers_of (updateFlash_of_steady untimed ..)
  · exact answers_of (updateFlash_of_early (Nat.not_le.1 early))
  · exact answers_step ht hd (by rw [timeStep_eq_ite, if_pos running])
  · refine answers_step ht hd ?_
    rw [timeStep_eq_ite, if_neg (not_not.2 elapsed), if_pos lit, if_pos more]
  · refine answers_step (.inl single) hd ?_
    rw [timeStep_eq_ite, if_neg (not_not.2 elapsed), if_pos lit, if_neg last.not_gt, if_pos single]
  · refine answers_step (.inr cont) hd ?_
    rw [timeStep_eq_ite, if_neg (not_not.2 elapsed), if_pos lit, if_neg last.not_gt,
      if_neg (by rw [cont]; nofun)]
  · refine answers_step ht hd ?_
    rw [timeStep_eq_ite, if_neg (not_not.2 elapsed), if_neg (Bool.eq_false_iff.1 dark)]

/-! ### The level of a burst -/

/-- A burst as repetitions of flash and gap, the last without its gap. -/
theorem burst_eq_mul_add {n : Nat} (hn : 0 < n) (on off : Nat) :
    n * on + (n - 1) * off = (n - 1) * (on + off) + on := by
  obtain ⟨m, rfl⟩ := Nat.exists_eq_add_of_lt hn
  simp only [Nat.zero_add, Nat.add_sub_cancel]
  ring

/-- Every flash of a burst ends inside it. -/
theorem flash_end_le_burst {on off n i : Nat} (hi : i < n) :
    i * (on + off) + on ≤ n * on + (n - 1) * off := by
  rw [burst_eq_mul_add (Nat.zero_lt_of_lt hi)]
  exact Nat.add_le_add_right (Nat.mul_le_mul_right _ (Nat.le_sub_one_of_lt hi)) _

theorem burstLevel_in_flash {on off n i e : Nat} (hi : i < n) (he : e < on) :
    burstLevel on off n (i * (on + off) + e) = true := by
  have inside : i * (on + off) + e < n * on + (n - 1) * off :=
    lt_of_lt_of_le (Nat.add_lt_add_left he _) (flash_end_le_burst hi)
  have offset : (i * (on + off) + e) % (on + off) = e := by
    rw [Nat.mul_add_mod', Nat.mod_eq_of_lt (by omega)]
  simp [burstLevel, inside, offset, he]

theorem burstLevel_in_gap {on off n i e : Nat} (hon : on ≤ e) (he : e < on + off) :
    burstLevel on off n (i * (on + off) + e) = false := by
  have offset : (i * (on + off) + e) % (on + off) = e := by
    rw [Nat.mul_add_mod', Nat.mod_eq_of_lt he]
  simp [burstLevel, offset, hon]

theorem burstLevel_after {on off n j : Nat} (h : n * on + (n - 1) * off ≤ j) :
    burstLevel on off n j = false := by
  simp [burstLevel, h.not_gt]

/-! ### The place of the engine in its pattern -/

/-- The four parameters the engine holds. -/
def Flash.pattern (f : Flash) : Pattern := ⟨f.onTicks, f.offTicks, f.burstCount, f.pauseTicks⟩

/-- The time steps from the first rise of a burst to its last fall (R91). -/
def burstSteps (q : Pattern) : Nat :=
  q.count.toNat * q.on.toNat + (q.count.toNat - 1) * q.off.toNat

/-- The engine stands `j` time steps after the start of its burst: `j` and the steps that remain of
the running interval add up to the step at which a flash, a gap or the pause ends (R91). -/
inductive InPhase (f : Flash) (j : Nat) : Prop
  | flash (lit : f.led = true) (fits : f.ticksRemaining.toNat ≤ f.onTicks.toNat)
      (ends : j + f.ticksRemaining.toNat =
        f.burstsSoFar.toNat * (f.onTicks.toNat + f.offTicks.toNat) + f.onTicks.toNat)
  | gap (dark : f.led = false) (more : f.burstsSoFar.toNat < f.burstCount.toNat)
      (fits : f.ticksRemaining.toNat ≤ f.offTicks.toNat)
      (ends : j + f.ticksRemaining.toNat =
        f.burstsSoFar.toNat * (f.onTicks.toNat + f.offTicks.toNat))
  | pause (dark : f.led = false) (last : f.burstCount.toNat ≤ f.burstsSoFar.toNat)
      (fits : f.ticksRemaining.toNat ≤ f.pauseTicks.toNat)
      (ends : j + f.ticksRemaining.toNat = burstSteps f.pattern + f.pauseTicks.toNat)

/-- The engine plays the pattern `q` in the timed mode `m` and stands at time step `j` of it. -/
structure Playing (m : FlashMode) (q : Pattern) (j : Nat) (f : Flash) : Prop where
  mode    : f.mode = m
  pattern : f.pattern = q
  ok      : PatternOk f
  phase   : InPhase f j

theorem toNat_of_sub_one_eq_zero {b : Byte} (h : b - 1 = 0) : b.toNat = 1 := by
  bv_omega

theorem toNat_sub_one {b : Byte} (h : b ≠ 0) : (b - 1).toNat = b.toNat - 1 := by
  bv_omega

/-- A gap begins where its flash ends. -/
theorem flash_end_add_gap (i on off : Nat) : i * (on + off) + on + off = (i + 1) * (on + off) := by
  ring

/-- The indicator shows the burst's level at the place where the engine stands. -/
theorem InPhase.level {f : Flash} {j : Nat} (h : InPhase f j) (ok : PatternOk f) :
    f.led = burstLevel f.onTicks.toNat f.offTicks.toNat f.burstCount.toNat j := by
  obtain ⟨-, running, hlit, hdark, -⟩ := ok
  have hticks := toNat_pos_of_ne_zero running
  cases h with
  | flash lit fits ends =>
    obtain ⟨e, rfl⟩ : ∃ e, j = f.burstsSoFar.toNat * (f.onTicks.toNat + f.offTicks.toNat) + e :=
      Nat.exists_eq_add_of_le (by omega)
    rw [lit, burstLevel_in_flash (hlit lit) (by omega)]
  | gap dark more fits ends =>
    obtain ⟨i, hi⟩ : ∃ i, f.burstsSoFar.toNat = i + 1 :=
      Nat.exists_eq_add_of_le' (hdark dark).1
    rw [hi, ← flash_end_add_gap] at ends
    obtain ⟨e, rfl⟩ : ∃ e, j = i * (f.onTicks.toNat + f.offTicks.toNat) + e :=
      Nat.exists_eq_add_of_le (by omega)
    rw [dark, burstLevel_in_gap (by omega) (by omega)]
  | pause dark last fits ends =>
    have after : burstSteps f.pattern ≤ j := by omega
    rw [dark]
    exact (burstLevel_after after).symm

/-- A single burst in play has not come to its end. -/
theorem InPhase.lt_burst {f : Flash} {j : Nat} (h : InPhase f j) (ok : PatternOk f)
    (more : f.burstsSoFar.toNat < f.burstCount.toNat) : j < burstSteps f.pattern := by
  obtain ⟨-, running, -⟩ := ok
  have hticks := toNat_pos_of_ne_zero running
  have flash_end : _ ≤ burstSteps f.pattern :=
    flash_end_le_burst (on := f.onTicks.toNat) (off := f.offTicks.toNat) more
  cases h with
  | flash _ _ ends | gap _ _ _ ends => omega
  | pause _ last => omega

theorem InPhase.lt_period {f : Flash} {j : Nat} (h : InPhase f j) (ok : PatternOk f) :
    j < burstSteps f.pattern + f.pauseTicks.toNat := by
  by_cases more : f.burstsSoFar.toNat < f.burstCount.toNat
  · exact Nat.lt_add_right _ (h.lt_burst ok more)
  · obtain ⟨-, running, hlit, -⟩ := ok
    have hticks := toNat_pos_of_ne_zero running
    cases h with
    | flash lit => exact absurd (hlit lit) more
    | gap _ more' => exact absurd more' more
    | pause _ _ _ ends => omega

theorem PatternOk.single_more {f : Flash} (h : PatternOk f) (hm : f.mode = .singleBurst) :
    f.burstsSoFar.toNat < f.burstCount.toNat := by
  obtain ⟨-, -, -, -, hsingle⟩ := h
  exact hsingle hm

section Playing
variable {m : FlashMode} {q : Pattern} {j : Nat} {f : Flash} (h : Playing m q j f)
include h

theorem Playing.level : f.led = burstLevel q.on.toNat q.off.toNat q.count.toNat j := by
  obtain ⟨-, rfl, ok, phase⟩ := h
  exact phase.level ok

theorem Playing.lt_period : j < burstSteps q + q.pause.toNat := by
  obtain ⟨-, rfl, ok, phase⟩ := h
  exact phase.lt_period ok

theorem Playing.timedMode (hm : m = .singleBurst ∨ m = .continuousBursts) : timedMode f = true :=
  (timedMode_iff f).2 (h.mode ▸ hm)

end Playing

theorem Playing.lt_burst {q : Pattern} {j : Nat} {f : Flash} (h : Playing .singleBurst q j f) :
    j < burstSteps q := by
  obtain ⟨single, rfl, ok, phase⟩ := h
  exact phase.lt_burst ok (ok.single_more single)

/-! ### One time step of a pattern in play -/

@[simp] theorem timeStep_pattern (now : Nat) (f : Flash) :
    (timeStep now f).pattern = f.pattern := by
  rcases timeStep_cases now f with ⟨-, e⟩ | ⟨-, -, -, e⟩ | ⟨-, -, -, -, e⟩ | ⟨-, -, -, -, e⟩ |
    ⟨-, -, -, e⟩ | ⟨-, -, -, e⟩ <;> rw [e] <;> rfl

theorem FlashOk.patternOk {p : Params} {f : Flash} (h : FlashOk p f) (hm : timedMode f = true) :
    PatternOk f := by
  obtain ⟨-, -, -, ok⟩ := h
  exact ok hm

/-- A pattern that a time step does not end stays consistent. Any clock wide enough to hold the
sample serves to say so: the pattern itself holds no time. -/
theorem PatternOk.timeStep {f : Flash} (h : PatternOk f) (hm : timedMode f = true) (now : Nat)
    (hm' : timedMode (timeStep now f) = true) : PatternOk (timeStep now f) :=
  have kept := flashOk_timeStep (p := { Params.ref with clkBits := now }) Nat.lt_two_pow_self hm h
  kept.patternOk hm'

/-- Inside an interval a time step counts down, and the place moves on with it. -/
theorem InPhase.countDown {f : Flash} {j : Nat} (h : InPhase f j) (ok : PatternOk f) (now : Nat) :
    InPhase { f with lastTick := now, ticksRemaining := f.ticksRemaining - 1 } (j + 1) := by
  obtain ⟨-, running, -⟩ := ok
  have hticks := toNat_pos_of_ne_zero running
  have hrest := toNat_sub_one running
  have less : (f.ticksRemaining - 1).toNat ≤ f.ticksRemaining.toNat := by omega
  have same_end : j + 1 + (f.ticksRemaining - 1).toNat = j + f.ticksRemaining.toNat := by omega
  cases h with
  | flash lit fits ends => exact .flash lit (less.trans fits) (same_end.trans ends)
  | gap dark more fits ends => exact .gap dark more (less.trans fits) (same_end.trans ends)
  | pause dark last fits ends => exact .pause dark last (less.trans fits) (same_end.trans ends)

section IntervalEnd
variable {f : Flash} {j : Nat} (h : InPhase f j) (elapsed : f.ticksRemaining - 1 = 0)
include h elapsed

theorem InPhase.flash_ends (lit : f.led = true) :
    j + 1 = f.burstsSoFar.toNat * (f.onTicks.toNat + f.offTicks.toNat) + f.onTicks.toNat := by
  have one := toNat_of_sub_one_eq_zero elapsed
  cases h with
  | flash _ _ ends => rwa [one] at ends
  | gap dark | pause dark => simp [dark] at lit

theorem InPhase.gap_ends (dark : f.led = false)
    (more : f.burstsSoFar.toNat < f.burstCount.toNat) :
    j + 1 = f.burstsSoFar.toNat * (f.onTicks.toNat + f.offTicks.toNat) := by
  have one := toNat_of_sub_one_eq_zero elapsed
  cases h with
  | flash lit => simp [dark] at lit
  | gap _ _ _ ends => rwa [one] at ends
  | pause _ last => exact absurd more last.not_gt

theorem InPhase.pause_ends (dark : f.led = false)
    (last : f.burstCount.toNat ≤ f.burstsSoFar.toNat) :
    j + 1 = burstSteps f.pattern + f.pauseTicks.toNat := by
  have one := toNat_of_sub_one_eq_zero elapsed
  cases h with
  | flash lit => simp [dark] at lit
  | gap _ more => exact absurd more last.not_gt
  | pause _ _ _ ends => rwa [one] at ends

/-- The burst ends with its last flash. -/
theorem InPhase.burst_ends (ok : PatternOk f) (lit : f.led = true)
    (last : f.burstCount.toNat ≤ f.burstsSoFar.toNat + 1) : j + 1 = burstSteps f.pattern := by
  have flash_end := h.flash_ends elapsed lit
  obtain ⟨-, -, hlit, -⟩ := ok
  have more := hlit lit
  have nth : f.burstCount.toNat - 1 = f.burstsSoFar.toNat := by omega
  calc j + 1
      = (f.burstCount.toNat - 1) * (f.onTicks.toNat + f.offTicks.toNat) + f.onTicks.toNat := by
        rw [nth, flash_end]
    _ = burstSteps f.pattern := (burst_eq_mul_add (Nat.zero_lt_of_lt more) ..).symm

end IntervalEnd

/-- Where a time step takes a pattern in play: one step on, to the end of a single burst, or back to
the start of a repeated one (R91). -/
theorem Playing.timeStep {m : FlashMode} {q : Pattern} {j : Nat} {f : Flash}
    (h : Playing m q j f) (hm : m = .singleBurst ∨ m = .continuousBursts) (now : Nat) :
    Playing m q (j + 1) (timeStep now f) ∨
    (m = .singleBurst ∧ j + 1 = burstSteps q ∧
      (timeStep now f).mode = .alwaysOff ∧ (timeStep now f).led = false) ∨
    (m = .continuousBursts ∧ j + 1 = burstSteps q + q.pause.toNat ∧
      Playing m q 0 (timeStep now f)) := by
  obtain ⟨rfl, rfl, ok, phase⟩ := h
  have timed := (timedMode_iff f).2 hm
  have playing : ∀ {i}, (Machine.timeStep now f).mode = f.mode →
      InPhase (Machine.timeStep now f) i → Playing f.mode f.pattern i (Machine.timeStep now f) :=
    fun hmode hphase => ⟨hmode, timeStep_pattern now f,
      ok.timeStep timed now ((timedMode_iff _).2 (hmode.symm ▸ hm)), hphase⟩
  rcases timeStep_cases now f with ⟨-, e⟩ | ⟨elapsed, lit, more, e⟩ |
    ⟨elapsed, lit, last, single, e⟩ | ⟨elapsed, lit, last, -, e⟩ | ⟨elapsed, dark, last, e⟩ |
    ⟨elapsed, dark, more, e⟩
  · exact .inl (playing (by rw [e]) (e ▸ phase.countDown ok now))
  · have next : j + 1 + f.offTicks.toNat =
        (f.burstsSoFar + 1).toNat * (f.onTicks.toNat + f.offTicks.toNat) := by
      rw [ok.toNat_succ lit, phase.flash_ends elapsed lit, flash_end_add_gap]
    exact .inl (playing (by rw [e]) (e ▸ .gap rfl more le_rfl next))
  · rw [ok.toNat_succ lit] at last
    exact .inr (.inl ⟨single, phase.burst_ends elapsed ok lit last, by rw [e], by rw [e]⟩)
  · have next : j + 1 + f.pauseTicks.toNat = burstSteps f.pattern + f.pauseTicks.toNat := by
      rw [phase.burst_ends elapsed ok lit (ok.toNat_succ lit ▸ last)]
    exact .inl (playing (by rw [e]) (e ▸ .pause rfl last le_rfl next))
  · have cont : f.mode = .continuousBursts := hm.resolve_left fun single =>
      last.not_gt (ok.single_more single)
    exact .inr (.inr ⟨cont, phase.pause_ends elapsed dark last,
      playing (by rw [e]) (e ▸ .flash rfl le_rfl (by simp))⟩)
  · have next : j + 1 + f.onTicks.toNat =
        f.burstsSoFar.toNat * (f.onTicks.toNat + f.offTicks.toNat) + f.onTicks.toNat := by
      rw [phase.gap_ends elapsed dark more]
    exact .inl (playing (by rw [e]) (e ▸ .flash rfl le_rfl next))

/-! ### Updates at the tick rate -/

/-- An encoded operation is issued as itself (R62). -/
theorem issue_requestOf (i : Instr) (now : Nat) (raw : Bool) (s : State) :
    issue (requestOf i now raw) s = exec i { s with now := clkLow s.cfg now, raw := raw } :=
  issue_instr (r := requestOf i now raw) (decodeEncodeGivesBackEveryInstruction i) s

theorem issue_flUpdate (now : Nat) (raw : Bool) (s : State) :
    ∃ u, issue (requestOf .flUpdate now raw) s = .next u ∧ u.cfg = s.cfg ∧
      u.fl = updateFlash s.cfg (clkLow s.cfg now) s.fl :=
  ⟨_, (issue_requestOf ..).trans (exec_flUpdate _), rfl, rfl⟩

/-- A host's configuration of a usable pattern completes and sets the engine to its start (R88). -/
theorem issue_configuration {i : Instr} {m : FlashMode} {q : Pattern}
    (hi : ∀ s, exec i s = hostConfigure m q s) (hq : patternUsable m q = true) (now : Nat)
    (raw : Bool) (s : State) :
    ∃ u, issue (requestOf i now raw) s = .next u ∧ u.cfg = s.cfg ∧
      u.fl = configured m q (clkLow s.cfg now) :=
  ⟨_, (issue_requestOf ..).trans ((hi _).trans (hostConfigure_next.2 ⟨hq, rfl⟩)), rfl, rfl⟩

/-- A difference is the same from a time stored at its `CLK_BITS` low bits (R11). -/
theorem clkSub_clkLow_right (p : Params) (now t : Nat) :
    clkSub p now (clkLow p t) = clkSub p now t := by
  rw [clkSub, clkLow, Nat.mod_mod, clkSub]

@[simp] theorem timeStep_lastTick (now : Nat) (f : Flash) : (timeStep now f).lastTick = now := by
  rcases timeStep_cases now f with ⟨-, e⟩ | ⟨-, -, -, e⟩ | ⟨-, -, -, -, e⟩ | ⟨-, -, -, -, e⟩ |
    ⟨-, -, -, e⟩ | ⟨-, -, -, e⟩ <;> rw [e]

/-- The engine is steady, or it took its last tick at the time `t`. -/
def TickedAt (p : Params) (t : Nat) (f : Flash) : Prop :=
  timedMode f = true → f.lastTick = clkLow p t

/-- One tick period after the last tick, wrapped or not, an update of a timed mode is due. -/
theorem TickedAt.updateFlash_eq_timeStep {p : Params} {t : Nat} {f : Flash} (h : TickedAt p t f)
    (hclk : p.tickMs < 2 ^ p.clkBits) (hm : timedMode f = true) :
    updateFlash p (clkLow p (t + p.tickMs)) f = timeStep (clkLow p (t + p.tickMs)) f := by
  refine updateFlash_of_due hm (Nat.le_of_eq ?_)
  rw [h hm, clkSub_clkLow_right, clkSub_clkLow_add p t _ hclk]

/-- `Shows k f` can say of an engine that `k` ticks have led to it: one more tick leaves a steady
engine as it is and is a time step of a timed one, whatever the clock reads. -/
structure KeptByTicks (Shows : Nat → Flash → Prop) : Prop where
  steady : ∀ {k f}, Shows k f → timedMode f = false → Shows (k + 1) f
  timed  : ∀ {k f}, Shows k f → timedMode f = true → ∀ now, Shows (k + 1) (timeStep now f)

section Ticks
variable {Shows : Nat → Flash → Prop} (kept : KeptByTicks Shows)
include kept

/-- An update one tick period after the last tick is one tick. -/
theorem KeptByTicks.update {p : Params} {j t : Nat} {f : Flash}
    (hclk : p.tickMs < 2 ^ p.clkBits) (htick : TickedAt p t f) (h : Shows j f) :
    TickedAt p (t + p.tickMs) (updateFlash p (clkLow p (t + p.tickMs)) f) ∧
      Shows (j + 1) (updateFlash p (clkLow p (t + p.tickMs)) f) := by
  cases hm : timedMode f with
  | false =>
    rw [updateFlash_of_steady hm]
    exact ⟨fun timed => absurd timed (Bool.eq_false_iff.1 hm), kept.steady h hm⟩
  | true =>
    rw [htick.updateFlash_eq_timeStep hclk hm]
    exact ⟨fun _ => timeStep_lastTick .., kept.timed h hm _⟩

/-- What every tick keeps, `k` updates at the tick rate keep (R91). -/
theorem KeptByTicks.run_updates (raw : Bool) (k : Nat) {j t : Nat} {s : State}
    (hclk : s.cfg.tickMs < 2 ^ s.cfg.clkBits) (htick : TickedAt s.cfg t s.fl) (h : Shows j s.fl) :
    ∃ u, runRequests (updatesFrom s.cfg t raw k) s = .next u ∧ Shows (j + k) u.fl := by
  induction k generalizing j t s with
  | zero => exact ⟨s, rfl, h⟩
  | succ k ih =>
    obtain ⟨htick', h'⟩ := kept.update hclk htick h
    obtain ⟨v, hissue, hcfg, hfl⟩ := issue_flUpdate (t + s.cfg.tickMs) raw s
    rw [← hfl] at htick' h'
    rw [← hcfg] at hclk htick'
    obtain ⟨u, hrun, hu⟩ := ih hclk htick' h'
    rw [hcfg] at hrun
    exact ⟨u, runRequests_cons_next.2 ⟨v, hissue, hrun⟩, by rwa [Nat.add_right_comm] at hu⟩

/-- A host's configuration of a usable pattern and `k` updates at the tick rate after it. -/
theorem KeptByTicks.run_configuration {i : Instr} {m : FlashMode} {q : Pattern}
    (hi : ∀ s, exec i s = hostConfigure m q s) (hq : patternUsable m q = true)
    (h : ∀ now, Shows 0 (configured m q now)) (s : State) (t k : Nat) (raw : Bool)
    (hclk : s.cfg.tickMs < 2 ^ s.cfg.clkBits) :
    ∃ u, runRequests (requestOf i t raw :: updatesFrom s.cfg t raw k) s = .next u ∧
      Shows k u.fl := by
  obtain ⟨v, hissue, hcfg, hfl⟩ := issue_configuration hi hq t raw s
  have htick : TickedAt v.cfg t v.fl := fun _ => by rw [hfl, hcfg, configured_lastTick]
  obtain ⟨u, hrun, hu⟩ := kept.run_updates raw k (hcfg ▸ hclk) htick (hfl ▸ h _)
  rw [hcfg] at hrun
  exact ⟨u, runRequests_cons_next.2 ⟨v, hissue, hrun⟩, by rwa [Nat.zero_add] at hu⟩

end Ticks

/-! ### The waveforms -/

/-- A configuration stands at the start of its pattern (R88). -/
theorem playing_configured {m : FlashMode} (hm : m = .singleBurst ∨ m = .continuousBursts)
    {q : Pattern} (hq : patternUsable m q = true) (now : Nat) :
    Playing m q 0 (configured m q now) := by
  have ok : FlashOk { Params.ref with clkBits := now } (configured m q now) :=
    flashOk_configured Nat.lt_two_pow_self hm hq
  exact ⟨rfl, rfl, ok.patternOk ((timedMode_iff _).2 hm), .flash rfl le_rfl (by simp)⟩

/-- `k` ticks after `FL.SINGLE`: the burst in play, or darkness from its end on (R91). -/
def ShowsSingle (q : Pattern) (k : Nat) (f : Flash) : Prop :=
  Playing .singleBurst q k f ∨ (burstSteps q ≤ k ∧ f.mode = .alwaysOff ∧ f.led = false)

/-- `k` ticks after `FL.CONT`: the pattern in play, `k` modulo its period steps on (R91). -/
def ShowsCont (q : Pattern) (k : Nat) (f : Flash) : Prop :=
  Playing .continuousBursts q (k % (burstSteps q + q.pause.toNat)) f

theorem timedMode_of_alwaysOff {f : Flash} (h : f.mode = .alwaysOff) : timedMode f = false := by
  simp [timedMode, h]

theorem keptByTicks_showsSingle (q : Pattern) : KeptByTicks (ShowsSingle q) where
  steady := by
    rintro k f (playing | ⟨ended, off, dark⟩) hm
    · simp [playing.timedMode (.inl rfl)] at hm
    · exact .inr ⟨ended.trans k.le_succ, off, dark⟩
  timed := by
    rintro k f (playing | ⟨-, off, -⟩) hm now
    · rcases playing.timeStep (.inl rfl) now with next | ⟨-, ended, off, dark⟩ | ⟨cont, -⟩
      · exact .inl next
      · exact .inr ⟨ended.ge, off, dark⟩
      · cases cont
    · simp [timedMode_of_alwaysOff off] at hm

theorem keptByTicks_showsCont (q : Pattern) : KeptByTicks (ShowsCont q) where
  steady := fun h hm => absurd (h.timedMode (.inr rfl)) (Bool.eq_false_iff.1 hm)
  timed := by
    intro k f h _ now
    unfold ShowsCont
    rw [← Nat.mod_add_mod]
    rcases Playing.timeStep h (.inr rfl) now with next | ⟨single, -⟩ | ⟨-, wraps, again⟩
    · rwa [Nat.mod_eq_of_lt next.lt_period]
    · cases single
    · rwa [wraps, Nat.mod_self]

/-- Settles O41: until its end the burst is in play at step `k`, and from then on it is dark. -/
theorem singleBurstWaveform : Obligations.SingleBurstWaveform := by
  intro s on off n pause t0 k raw hclk hon hn hoff
  have usable : patternUsable .singleBurst ⟨on, off, n, pause⟩ = true :=
    patternUsable_of_one_le (.inl rfl) hon hn hoff nofun
  obtain ⟨t, hrun, shows⟩ := (keptByTicks_showsSingle _).run_configuration
    (i := .flSingle on off n pause) (fun _ => rfl) usable
    (fun now => .inl (playing_configured (.inl rfl) usable now)) s t0 k raw hclk
  refine ⟨t, hrun, ?_⟩
  rcases shows with playing | ⟨ended, hoff, dark⟩
  · have inside : k < n.toNat * on.toNat + (n.toNat - 1) * off.toNat := playing.lt_burst
    exact ⟨playing.level, by simp [playing.mode, inside], by simp [playing.mode, inside]⟩
  · have ended : n.toNat * on.toNat + (n.toNat - 1) * off.toNat ≤ k := ended
    exact ⟨by rw [dark, burstLevel_after ended], by simp [hoff, ended], by simp [hoff, ended]⟩

/-- Settles O42: the pattern is in play at step `k` modulo its period, for ever. -/
theorem continuousBurstsWaveform : Obligations.ContinuousBurstsWaveform := by
  intro s on off n pause t0 k raw hclk hon hn hoff hpause
  have usable : patternUsable .continuousBursts ⟨on, off, n, pause⟩ = true :=
    patternUsable_of_one_le (.inr rfl) hon hn hoff fun _ => hpause
  obtain ⟨t, hrun, playing⟩ := (keptByTicks_showsCont _).run_configuration
    (i := .flCont on off n pause) (fun _ => rfl) usable
    (fun now => by
      rw [ShowsCont, Nat.zero_mod]
      exact playing_configured (.inr rfl) usable now) s t0 k raw hclk
  exact ⟨t, hrun, playing.mode, playing.level⟩

end Sys2Proof.Machine
end

section
/-! PROOFS of the family `43_cv_store.md`: the factory image and its reset (R97 to R101), the access
to one index (R102, R103), and the decoder address: its derivation in the arithmetic of numbers, the
round trip with its encoding, and the capture that teaches it (R104 to R110, R135). -/

namespace Sys2Proof

/-! ### The named indices -/

/-- The indices of the image that the document gives differ from each other and from the marker's
(R6, R98). -/
theorem Params.Legal.imageIndices_ne {p : Params} (h : p.Legal) :
    (p.idxAddrLow ≠ 0 ∧ p.idxAddrHigh ≠ 0 ∧ p.idxVersion ≠ 0) ∧
    p.idxAddrHigh ≠ p.idxAddrLow ∧ p.idxVersion ≠ p.idxAddrLow ∧ p.idxVersion ≠ p.idxAddrHigh := by
  obtain ⟨distinct, bounds, -⟩ := h
  simp only [Params.namedIndices, List.nodup_cons, List.mem_cons] at distinct bounds
  grind

/-- The configuration byte stands at neither of the address bytes (R6). -/
theorem Params.Legal.idxConfig_ne {p : Params} (h : p.Legal) :
    p.idxConfig ≠ p.idxAddrLow ∧ p.idxConfig ≠ p.idxAddrHigh := by
  obtain ⟨distinct, -⟩ := h
  simp only [Params.namedIndices, List.nodup_cons, List.mem_cons] at distinct
  grind

end Sys2Proof

namespace Sys2Proof.Machine

/-! ### The factory image -/

/-- The bytes of the image that the document gives (R98). -/
theorem imageByte_given {p : Params} (h : p.Legal) (decoderType version : Byte) :
    imageByte p decoderType version 0 = p.magic ∧
    imageByte p decoderType version p.idxAddrLow = p.defAddrLow ∧
    imageByte p decoderType version p.idxAddrHigh = p.defAddrHigh ∧
    imageByte p decoderType version p.idxVersion = version := by
  obtain ⟨⟨hlow, hhigh, hversion⟩, hne⟩ := h.imageIndices_ne
  simp [imageByte, hlow, hhigh, hversion, hne]

/-- Settles O43: the defaults become `defaultImage` of the parameters and the two tags, read at the
four given indices, which legal parameters keep apart and inside the table. -/
theorem initBuildsTheFactoryImage : Obligations.InitBuildsTheFactoryImage := by
  refine ⟨fun w h => decode_of_opcode h, fun decoderType version s legal => ?_⟩
  obtain ⟨marker, low, high, versionByte⟩ := imageByte_given legal decoderType version
  have named {i : Nat} (hi : i ∈ s.cfg.namedIndices) :
      (defaultImage s.cfg decoderType version).getD i 0 = imageByte s.cfg decoderType version i :=
    defaultImage_at _ _ _ (legal.named_le hi)
  refine ⟨_, rfl, rfl, by simp [defaultImage], ?_, ?_, ?_, ?_, ?_⟩
  · exact (defaultImage_at _ _ _ (Nat.zero_le _)).trans marker
  · exact (named (by simp [Params.namedIndices])).trans low
  · exact (named (by simp [Params.namedIndices])).trans high
  · exact (named (by simp [Params.namedIndices])).trans versionByte
  · intro s' t' hcfg h
    cases h
    exact congrArg (defaultImage · decoderType version) hcfg

/-! ### The factory reset -/

theorem exec_cvsSetdef {s : State} (h : s.inited = true) :
    exec .cvsSetdef s = .next (setDefaults (opStart s)) :=
  if_pos h

theorem setDefaults_frame (s : State) :
    setDefaults s = { s with table := (setDefaults s).table } := by
  rw [setDefaults_eq]

/-- The second factory reset writes what every index holds already (R101). -/
theorem setDefaults_setDefaults {s : State} (h : Memory.wf s.table = true) :
    setDefaults (setDefaults s) = setDefaults s := by
  have hwf := setDefaults_table_wf s h
  have same_table : (setDefaults (setDefaults s)).table = (setDefaults s).table := by
    refine Memory.ext_read _ _ (setDefaults_table_wf _ hwf) hwf fun k => ?_
    have again := setDefaults_read (setDefaults s) k hwf
    have once := setDefaults_read s k h
    rw [defaultAt, setDefaults_defaults, setDefaults_cfg] at again
    split at once
    · next hk => rw [if_pos hk] at again; exact again.trans once.symm
    · next hk => rw [if_neg hk] at again; exact again
  rw [setDefaults_frame (setDefaults s), same_table]

/-- Settles O44: the factory reset reads as `setDefaults_read` says, changes the table alone, and
begins a second time in a state whose answer is clear already. -/
theorem setDefaultsCopiesTheImage : Obligations.SetDefaultsCopiesTheImage := by
  refine ⟨fun w h => decode_of_opcode h, fun s hi hwf => ?_⟩
  refine ⟨_, exec_cvsSetdef hi, fun k => setDefaults_read (opStart s) k hwf,
    setDefaults_frame (opStart s), ?_⟩
  have answer_clear : opStart (setDefaults (opStart s)) = setDefaults (opStart s) := by
    rw [setDefaults_frame]; rfl
  rw [exec_cvsSetdef (by simpa using hi), answer_clear,
    setDefaults_setDefaults (s := opStart s) hwf]

/-! ### One index -/

/-- A number of 14 bits, the widest address, fits a response (R6, R59). -/
theorem addrLow_of_lt {p : Params} (haddr : 14 ≤ p.addrBits) {v : Nat} (hv : v < 2 ^ 14) :
    addrLow p v = v :=
  Nat.mod_eq_of_lt (hv.trans_le (Nat.pow_le_pow_right (by omega) haddr))

/-- Settles O46: both operations test the index first; inside the table the read answers the byte and
the write is one `Memory.write`. -/
theorem storeReadAndWriteReachOneIndex : Obligations.StoreReadAndWriteReachOneIndex := by
  refine ⟨fun w => ⟨fun h => decode_of_opcode h, fun h => decode_of_opcode h⟩,
    fun index value s => ⟨fun hn haddr => ?_, fun hn hwf => ?_, fun hn => ?_⟩⟩
  · calc exec (.cvsRead index) s
        = .next (respond (opStart s) (addrLow s.cfg (memRead s index.toNat).toNat)) :=
          if_neg hn.not_gt
      _ = _ := by rw [addrLow_of_lt haddr (by omega)]; rfl
  · exact ⟨memWrite (opStart s) index.toNat value, if_neg hn.not_gt,
      fun k => Memory.read_write s.table _ k value hwf, rfl⟩
  · exact ⟨if_pos hn, if_pos hn⟩

/-! ### The two queries -/

/-- The sentinel bit is set in a byte of 128 or more (R16, R104). -/
theorem sentinelSet_eq_decide (b : Byte) : sentinelSet b = decide (128 ≤ b.toNat) :=
  (BitVec.msb_eq_getLsbD_last b).symm.trans (BitVec.msb_eq_decide b)

/-- Settles O45: the answers are the marker's comparison and the sentinel bit; after a factory reset
the marker is the default at index 0, the magic value. -/
theorem markerAndSentinelQueries : Obligations.MarkerAndSentinelQueries := by
  refine ⟨fun w => ⟨fun h => decode_of_opcode h, fun h => decode_of_opcode h⟩,
    fun s => ⟨?_, ?_⟩, fun s ok hi => ?_⟩
  · have answer : (markerDiffers s.cfg (memRead s 0)).toNat =
        if memRead s 0 = s.cfg.magic then 0 else 1 := by
      rw [markerDiffers]
      split <;> simp [*]
    calc exec .cvsNotinit s
        = .next { s with rsp := (markerDiffers s.cfg (memRead s 0)).toNat, events := [] } := rfl
      _ = _ := by rw [answer]
  · have answer : (sentinelSet (memRead s s.cfg.idxAddrHigh)).toNat =
        if 128 ≤ (memRead s s.cfg.idxAddrHigh).toNat then 1 else 0 := by
      rw [sentinelSet_eq_decide]
      split <;> simp [*]
    calc exec .cvsAddrnotset s
        = .next { s with rsp := (sentinelSet (memRead s s.cfg.idxAddrHigh)).toNat, events := [] } :=
          rfl
      _ = _ := by rw [answer]
  · refine ⟨_, _, exec_cvsSetdef hi, rfl, ?_⟩
    have marker : memRead (setDefaults (opStart s)) 0 = s.cfg.magic := by
      have hwf : Memory.wf s.table = true := ok.1
      rw [setDefaults_read (opStart s) 0 hwf, if_pos (Nat.zero_le _)]
      exact StoreOk.default_marker ok hi
    simp [markerDiffers, marker]

/-! ### The derivation in the arithmetic of numbers -/

/-- `{x, y}` as a number (R7). -/
theorem toNat_append_eq_add {m n : Nat} (x : BitVec m) (y : BitVec n) :
    (x ++ y).toNat = x.toNat * 2 ^ n + y.toNat := by
  rw [BitVec.toNat_append, ← Nat.shiftLeft_add_eq_or_of_lt y.isLt, Nat.shiftLeft_eq]

theorem toNat_accOutputNumber (hi lo : Byte) :
    (accOutputNumber hi lo).toNat = hi.toNat % 8 * 256 + lo.toNat :=
  (toNat_append_eq_add _ lo).trans (by simp)

theorem toNat_accDecoderNumber (hi lo : Byte) :
    (accDecoderNumber hi lo).toNat = hi.toNat % 8 * 64 + lo.toNat % 64 :=
  (toNat_append_eq_add _ _).trans (by simp)

theorem toNat_longNumber (longHigh longLow : Byte) :
    (longNumber longHigh longLow).toNat = longHigh.toNat % 64 * 256 + longLow.toNat :=
  (toNat_append_eq_add _ longLow).trans (by simp)

theorem toNat_shortNumber (lo : Byte) : (shortNumber lo).toNat = lo.toNat % 128 := by
  simp [shortNumber]

section Derivation
variable {p : Params} (haddr : 14 ≤ p.addrBits)
include haddr

/-- Output addressing (R106). -/
theorem accOutput_eq (hi lo : Byte) : accOutput p hi lo = hi.toNat % 8 * 256 + lo.toNat := by
  rw [accOutput, toNat_accOutputNumber, addrLow_of_lt haddr (by omega)]

/-- Decoder addressing: the stored number less one, and 0 wraps to the highest (R107, D18). -/
theorem accDecoder_eq_ite (hi lo : Byte) :
    accDecoder p hi lo =
      if (accDecoderNumber hi lo).toNat = 0 then p.unassigned
      else (accDecoderNumber hi lo).toNat - 1 := by
  have fits : 2 ^ 14 ≤ 2 ^ p.addrBits := Nat.pow_le_pow_right (by omega) haddr
  have stored_lt := (accDecoderNumber hi lo).isLt
  have one_mod : 1 % 2 ^ p.addrBits = 1 := Nat.mod_eq_of_lt (by omega)
  rw [accDecoder, addrLow_of_lt haddr (by omega), addrSub, one_mod, Params.unassigned]
  split
  · next zero => rw [zero, Nat.zero_add, Nat.mod_eq_of_lt (by omega)]
  · next positive =>
    rw [show (accDecoderNumber hi lo).toNat + (2 ^ p.addrBits - 1) =
      (accDecoderNumber hi lo).toNat - 1 + 2 ^ p.addrBits by omega, Nat.add_mod_right,
      Nat.mod_eq_of_lt (by omega)]

/-- Multifunction addressing: the fallback is cut to a response, an address fits one (R108). -/
theorem multifunction_eq_ite {cfgByte lo longHigh longLow : Byte} {loco : Nat}
    (hloco : loco = if bitOf cfgByte p.bitLong.val = true
      then longHigh.toNat % 64 * 256 + longLow.toNat else lo.toNat % 128) :
    multifunction p cfgByte lo longHigh longLow =
      if loco = 0 then p.fallbackAddr % 2 ^ p.addrBits else loco := by
  have loco_lt : loco < 2 ^ 14 := by rw [hloco]; split <;> omega
  rw [multifunction, toNat_longNumber, toNat_shortNumber, ← hloco]
  by_cases unset : loco = 0
  · simp only [if_pos unset]; rfl
  · simp only [if_neg unset]; exact addrLow_of_lt haddr loco_lt

end Derivation

/-- Settles O47: the derivation's tests in their order, each branch with its number. -/
theorem storedAddressFollowsTheDerivation : Obligations.StoredAddressFollowsTheDerivation := by
  refine ⟨fun w h => decode_of_opcode h, fun s haddr => ?_⟩
  intro hi lo cfgByte stored long loco
  have sentinel : bitOf (memRead s s.cfg.idxAddrHigh) 7 = decide (128 ≤ hi) :=
    sentinelSet_eq_decide _
  calc exec .cvsStoredaddr s
      = .next { s with rsp := storedAddress s, events := [] } := rfl
    _ = _ := by
      rw [storedAddress, deriveAddress, sentinel, accOutput_eq haddr, accDecoder_eq_ite haddr,
        toNat_accDecoderNumber, multifunction_eq_ite haddr (loco := loco) rfl]
      simp only [decide_eq_true_eq]
      rfl

/-! ### The round trip -/

theorem toNat_encodeAddress_output (a : BitVec 11) :
    (encodeAddress a true).1.toNat = a.toNat % 256 ∧
    (encodeAddress a true).2.toNat = a.toNat / 256 := by
  have high : (encodeAddress a true).2.toNat = a.toNat / 256 % 8 % 256 := by
    simp [encodeAddress, Nat.shiftRight_eq_div_pow]
  exact ⟨by simp [encodeAddress], by omega⟩

/-- Decoder addressing stores the address plus one, six bits low and three bits high (R109). -/
theorem toNat_encodeAddress_decoder (a : BitVec 11) :
    (encodeAddress a false).1.toNat = (a.toNat + 1) % 64 ∧
    (encodeAddress a false).2.toNat = (a.toNat + 1) / 64 % 8 := by
  have sum_fits : (a.toNat + 1) % 4096 = a.toNat + 1 := by omega
  have low : (encodeAddress a false).1.toNat = (a.toNat + 1) % 64 % 256 := by
    simp [encodeAddress, sum_fits]
  have high : (encodeAddress a false).2.toNat = (a.toNat + 1) / 64 % 8 % 256 := by
    simp [encodeAddress, Nat.shiftRight_eq_div_pow, sum_fits]
  exact ⟨by omega, by omega⟩

/-- What is stored for decoder addressing is the nine low bits of the address plus one (R109). -/
theorem accDecoderNumber_encodeAddress (a : BitVec 11) :
    (accDecoderNumber (encodeAddress a false).2 (encodeAddress a false).1).toNat =
      (a.toNat + 1) % 512 := by
  obtain ⟨low, high⟩ := toNat_encodeAddress_decoder a
  rw [toNat_accDecoderNumber, low, high]
  omega

/-- An encoded address never has the sentinel (R109). -/
theorem sentinelSet_encodeAddress (a : BitVec 11) (outputAddressing : Bool) :
    sentinelSet (encodeAddress a outputAddressing).2 = false := by
  rw [sentinelSet_eq_decide, decide_eq_false_iff_not]
  cases outputAddressing
  · rw [(toNat_encodeAddress_decoder a).2]; omega
  · rw [(toNat_encodeAddress_output a).2]; omega

theorem accOutput_encodeAddress {p : Params} (haddr : 14 ≤ p.addrBits) (a : BitVec 11) :
    accOutput p (encodeAddress a true).2 (encodeAddress a true).1 = a.toNat := by
  obtain ⟨low, high⟩ := toNat_encodeAddress_output a
  rw [accOutput_eq haddr, low, high]
  omega

theorem accDecoder_encodeAddress {p : Params} (haddr : 14 ≤ p.addrBits) (a : BitVec 11) :
    accDecoder p (encodeAddress a false).2 (encodeAddress a false).1 =
      if (a.toNat + 1) % 512 = 0 then p.unassigned else (a.toNat + 1) % 512 - 1 := by
  rw [accDecoder_eq_ite haddr, accDecoderNumber_encodeAddress]

/-- The formula of either mode gives back every address that can be stored in it (R110). -/
theorem decode_encodeAddress {p : Params} (haddr : 14 ≤ p.addrBits) {a : BitVec 11}
    {outputAddressing : Bool} (storable : outputAddressing = true ∨ a.toNat ≤ 510) :
    let bytes := encodeAddress a outputAddressing
    (if outputAddressing = true then accOutput p bytes.2 bytes.1
      else accDecoder p bytes.2 bytes.1) = a.toNat := by
  intro bytes
  cases outputAddressing with
  | true => exact accOutput_encodeAddress haddr a
  | false =>
    have ha : a.toNat ≤ 510 := storable.resolve_left nofun
    have back := accDecoder_encodeAddress haddr a
    rw [if_neg (by omega)] at back
    exact back.trans (by omega)

/-- Settles O48: the two round trips; for 511 the stored pair is the zeros of 512's nine low bits. -/
theorem addressRoundTrip : Obligations.AddressRoundTrip := by
  intro p a haddr
  have decoder := accDecoder_encodeAddress haddr a
  refine ⟨accOutput_encodeAddress haddr a, fun ha => ?_, fun ha => ?_, fun ha => ?_, fun ha => ?_⟩
  · exact decode_encodeAddress haddr (outputAddressing := false) (.inr ha)
  · obtain rfl : a = 511#11 := BitVec.eq_of_toNat_eq ha
    rfl
  · rw [decoder, if_pos ha]
  · rw [decoder, if_neg ha]

/-! ### The capture -/

theorem exec_acc_of_captures {s : State} {a : BitVec 11} {isMine isBroadcast : Bool}
    (hb : booted s = true) (hc : captures isMine isBroadcast s = true) :
    exec (.acc a isMine isBroadcast) s = .next (capture a (opStart s)) :=
  execAcc_next.2 ⟨hb, .inl ⟨hc, rfl⟩⟩

/-- In the accessory role an assigned address is derived by the addressing mode alone (R105). -/
theorem deriveAddress_of_accessory {p : Params} {hi lo cfgByte longHigh longLow : Byte}
    (assigned : sentinelSet hi = false) (hacc : bitOf cfgByte p.bitAcc.val = true) :
    deriveAddress p hi lo cfgByte longHigh longLow =
      if bitOf cfgByte p.bitOut.val = true then accOutput p hi lo else accDecoder p hi lo := by
  rw [sentinelSet] at assigned
  rw [deriveAddress, assigned, if_neg Bool.false_ne_true, if_pos hacc]

section Capture
variable {s : State} (legal : s.cfg.Legal) (hwf : Memory.wf s.table = true) (a : BitVec 11)
include legal hwf

/-- A capture leaves the encoding of its address in the two address CVs (R135). -/
theorem memRead_capture_address :
    let bytes := encodeAddress a (bitOf (memRead s s.cfg.idxConfig) s.cfg.bitOut.val)
    memRead (capture a s) s.cfg.idxAddrLow = bytes.1 ∧
    memRead (capture a s) s.cfg.idxAddrHigh = bytes.2 := by
  intro bytes
  obtain ⟨-, hne, -⟩ := legal.imageIndices_ne
  constructor
  · calc memRead (capture a s) s.cfg.idxAddrLow
        = Memory.read (Memory.write s.table s.cfg.idxAddrLow bytes.1) s.cfg.idxAddrLow :=
          Memory.read_write_other _ _ _ _ hne.symm
      _ = bytes.1 := Memory.read_write_same _ _ _ hwf
  · exact Memory.read_write_same _ _ _ (Memory.wf_write _ _ _ hwf)

omit hwf in
/-- A capture leaves the configuration byte alone (R135). -/
theorem memRead_capture_config :
    memRead (capture a s) s.cfg.idxConfig = memRead s s.cfg.idxConfig := by
  by_contra changed
  exact (capture_changes changed).elim legal.idxConfig_ne.1 legal.idxConfig_ne.2

/-- With the accessory role, the captured address is the stored one (R110, R136). -/
theorem storedAddress_capture
    (hacc : bitOf (memRead s s.cfg.idxConfig) s.cfg.bitAcc.val = true)
    (storable : bitOf (memRead s s.cfg.idxConfig) s.cfg.bitOut.val = true ∨ a.toNat ≤ 510) :
    storedAddress (capture a s) = a.toNat := by
  obtain ⟨low, high⟩ := memRead_capture_address legal hwf a
  have haddr : 14 ≤ s.cfg.addrBits := by obtain ⟨-, -, -, haddr, -⟩ := legal; exact haddr
  have hcfg : (capture a s).cfg = s.cfg := rfl
  rw [storedAddress, hcfg, low, high, memRead_capture_config legal a,
    deriveAddress_of_accessory (sentinelSet_encodeAddress a _) hacc]
  exact decode_encodeAddress haddr storable

end Capture

/-- Settles O49: the operation is a capture, whose bytes derive back to the address and have no
sentinel. -/
theorem capturedAddressIsTheStoredAddress : Obligations.CapturedAddressIsTheStoredAddress := by
  intro s a isMine isBroadcast legal hwf hb hs hq hacc storable
  have qualifies : captures isMine isBroadcast s = true := by
    simp [captures, accQualifies, bitOf, hs, hq, hacc]
  refine ⟨_, _, _, exec_acc_of_captures hb qualifies, rfl, ?_, rfl, ?_⟩
  · exact storedAddress_capture (s := opStart s) legal hwf a hacc storable
  · obtain ⟨-, high⟩ := memRead_capture_address (s := opStart s) legal hwf a
    calc (sentinelSet (memRead (capture a (opStart s)) s.cfg.idxAddrHigh)).toNat
        = (sentinelSet (encodeAddress a _).2).toNat := by rw [← high]; rfl
      _ = 0 := by rw [sentinelSet_encodeAddress]; rfl

end Sys2Proof.Machine
end

section
/-! PROOFS of the family `44_cv_command.md`: the words of the unit (R54), the range check at the head
of every command (R114), what each command does inside the range (R115 to R123), and the event lists
an operation can end with (R124, R126). -/

namespace Sys2Proof

/-! ### Words and indices of the unit -/

/-- An `x` at the end of an opcode pattern stands for two opcodes (R54). -/
theorem opcode_of_upperSeven {op : Opcode} {k : Nat} (h : op.toNat / 2 = k) :
    op = BitVec.ofNat 8 (2 * k) ∨ op = BitVec.ofNat 8 (2 * k + 1) := by
  simp only [← BitVec.toNat_inj, BitVec.toNat_ofNat]
  omega

/-- `xx` at the end of an opcode pattern stands for four opcodes (R54). -/
theorem opcode_of_upperSix {op : Opcode} {k : Nat} (h : op.toNat / 4 = k) :
    op = BitVec.ofNat 8 (4 * k) ∨ op = BitVec.ofNat 8 (4 * k + 1) ∨
    op = BitVec.ofNat 8 (4 * k + 2) ∨ op = BitVec.ofNat 8 (4 * k + 3) := by
  simp only [← BitVec.toNat_inj, BitVec.toNat_ofNat]
  omega

/-- The four special indices of a write differ from each other (R6, R119). -/
theorem Params.Legal.specialIndices_ne {p : Params} (h : p.Legal) :
    p.idxVid ≠ p.idxVersion ∧
    (p.idxRestart ≠ p.idxVersion ∧ p.idxRestart ≠ p.idxVid) ∧
    p.idxSearch ≠ p.idxVersion ∧ p.idxSearch ≠ p.idxVid ∧ p.idxSearch ≠ p.idxRestart := by
  obtain ⟨distinct, -⟩ := h
  simp only [Params.namedIndices, List.nodup_cons, List.mem_cons] at distinct
  grind

/-- Every named index passes the range check (R6, R114). -/
theorem Params.Legal.named_inRange {p : Params} (h : p.Legal) {i : Nat}
    (hi : i ∈ p.namedIndices) : p.cvMin ≤ i ∧ i ≤ p.n := by
  obtain ⟨-, bounds, -, -, -, hmin, -⟩ := h
  exact ⟨hmin.trans (bounds i hi).1, (bounds i hi).2⟩

end Sys2Proof

namespace Sys2Proof.Machine

/-! ### The head of a command -/

theorem whenBooted_of_booted {s : State} (hb : booted s = true) (t : State) :
    whenBooted s t = .next t :=
  if_pos hb

theorem whenIndexOk_of_inRange {s : State} {n : BitVec 16}
    (h : s.cfg.cvMin ≤ n.toNat ∧ n.toNat ≤ s.cfg.n) (t : State) : whenIndexOk n s t = t :=
  if_pos ((cvIndexOk_iff _ n).2 h)

theorem whenIndexOk_of_outOfRange {s : State} {n : BitVec 16}
    (h : ¬ (s.cfg.cvMin ≤ n.toNat ∧ n.toNat ≤ s.cfg.n)) (t : State) :
    whenIndexOk n s t = opStart s :=
  if_neg (mt (cvIndexOk_iff _ n).1 h)

/-- Settles O52: six of the commands are their effect behind the range check, and the seventh is
dropped in any case. -/
theorem outOfRangeCommandsAreDropped : Obligations.OutOfRangeCommandsAreDropped := by
  intro n s hb hout
  have dropped (t : State) : whenBooted s (whenIndexOk n s t) = .next (opStart s) := by
    rw [whenIndexOk_of_outOfRange (by omega), whenBooted_of_booted hb]
  simp only [List.forall_mem_cons, List.not_mem_nil, IsEmpty.forall_iff, implies_true, and_true]
  exact ⟨fun v => ⟨dropped _, dropped _, dropped _, dropped _⟩,
    fun q d k => ⟨dropped _, dropped _, whenBooted_of_booted hb _⟩⟩

/-! ### Verifies and the commands that do nothing -/

/-- A verify that looks for `P` answers with its events alone (R115, R120). -/
theorem verify_eq {s : State} (hb : booted s = true) (n : BitVec 16) (P : Prop) [Decidable P] :
    whenBooted s (whenIndexOk n s (if P then emit (opStart s) .ack else opStart s)) = .next
      { s with
          rsp := 0
          events := if (s.cfg.cvMin ≤ n.toNat ∧ n.toNat ≤ s.cfg.n) ∧ P then [.ack] else [] } := by
  rw [whenBooted_of_booted hb]
  by_cases inRange : s.cfg.cvMin ≤ n.toNat ∧ n.toNat ≤ s.cfg.n
  · rw [whenIndexOk_of_inRange inRange]
    by_cases found : P
    · rw [if_pos found, if_pos ⟨inRange, found⟩]; rfl
    · rw [if_neg found, if_neg (found ·.2)]; rfl
  · rw [whenIndexOk_of_outOfRange inRange, if_neg (inRange ·.1)]; rfl

/-- Settles O53: the two verifies differ in what they look for. -/
theorem verifyAcknowledgesOnAMatch : Obligations.VerifyAcknowledgesOnAMatch := by
  refine ⟨fun w => ⟨fun h => ?_, fun h => decode_of_opcode h⟩,
    fun n v q d s hb => ⟨verify_eq hb n _, verify_eq hb n _⟩⟩
  rcases opcode_of_upperSeven h with e | e <;> exact decode_of_opcode e

/-- Settles O54: the range check of `CV.VFY.POM` separates two equal states, the other two commands
have none. -/
theorem noOpCommandsChangeNothing : Obligations.NoOpCommandsChangeNothing := by
  refine ⟨fun w => ⟨fun h => ?_, fun h => ?_, fun h => ?_⟩, fun n v q d k s hb => ?_⟩
  · rcases opcode_of_upperSeven h with e | e <;> exact decode_of_opcode e
  · rcases opcode_of_upperSeven h with e | e <;> rw [e] <;> exact decode_of_opcode e
  · rcases opcode_of_upperSix h with e | e | e | e <;> exact decode_of_opcode e
  · have verify : exec (.cvVfyPom n v) s = .next (opStart s) := by
      have either : whenIndexOk n s (opStart s) = opStart s := ite_self _
      exact (whenBooted_of_booted hb _).trans (congrArg _ either)
    simp only [List.forall_mem_cons, List.not_mem_nil, IsEmpty.forall_iff, implies_true, and_true]
    exact ⟨verify, whenBooted_of_booted hb _, rfl⟩

/-! ### Writing a byte -/

/-- The write command of a mode (R117, R118). -/
def cvWr : CvMode → BitVec 16 → Byte → Instr
  | .serviceMode => .cvWrSm
  | .programmingOnMain => .cvWrPom

/-- What `ackIn` adds to the events (R119). -/
def ackEvents : CvMode → List Event
  | .serviceMode => [.ack]
  | .programmingOnMain => []

theorem ackIn_eq (mode : CvMode) (s : State) :
    ackIn mode s = { s with events := s.events ++ ackEvents mode } := by
  cases mode with
  | serviceMode => rfl
  | programmingOnMain => rw [ackEvents, List.append_nil]; rfl

theorem exec_cvWr {s : State} {n : BitVec 16} (hb : booted s = true)
    (inRange : s.cfg.cvMin ≤ n.toNat ∧ n.toNat ≤ s.cfg.n) (mode : CvMode) (v : Byte) :
    exec (cvWr mode n v) s = .next (writeByte n.toNat v mode (opStart s)) := by
  calc exec (cvWr mode n v) s
      = whenBooted s (whenIndexOk n s (writeByte n.toNat v mode (opStart s))) := by
        cases mode <;> rfl
    _ = _ := by rw [whenIndexOk_of_inRange inRange, whenBooted_of_booted hb]

theorem writeByte_plain {idx : Nat} {s : State}
    (h : idx ∉ [s.cfg.idxVersion, s.cfg.idxVid, s.cfg.idxRestart, s.cfg.idxSearch]) (v : Byte)
    (mode : CvMode) : writeByte idx v mode s = ackIn mode (memWrite s idx v) := by
  simp only [List.mem_cons, List.not_mem_nil, or_false, not_or] at h
  obtain ⟨version, vid, restart, search⟩ := h
  rw [writeByte, if_neg version, if_neg vid, if_neg restart, if_neg search]

/-- Settles O55: a plain write is one `Memory.write`, and the modes differ in the events. -/
theorem plainWriteStoresAndAcknowledges : Obligations.PlainWriteStoresAndAcknowledges := by
  intro n v s hb hwf hmin hmax plain
  have stores (mode : CvMode) : exec (cvWr mode n v) s = .next
      { s with
          table := Memory.write s.table n.toNat v
          rsp := 0
          events := ackEvents mode } := by
    rw [exec_cvWr hb ⟨hmin, hmax⟩, writeByte_plain (s := opStart s) plain, ackIn_eq]; rfl
  exact ⟨_, _, stores .serviceMode, stores .programmingOnMain,
    fun k => Memory.read_write s.table _ k v hwf, rfl, rfl⟩

section Special
variable {s : State} (legal : s.cfg.Legal) (v : Byte) (mode : CvMode)

theorem writeByte_version : writeByte s.cfg.idxVersion v mode s = s :=
  if_pos rfl

include legal

theorem writeByte_vid : writeByte s.cfg.idxVid v mode s =
    if v = s.cfg.resetSentinel then reboot (ackIn mode (setDefaults s)) else s := by
  obtain ⟨version, -⟩ := legal.specialIndices_ne
  rw [writeByte, if_neg version, if_pos rfl]

theorem writeByte_restart : writeByte s.cfg.idxRestart v mode s =
    if v ≠ 0 then reboot s else s := by
  obtain ⟨-, ⟨version, vid⟩, -⟩ := legal.specialIndices_ne
  rw [writeByte, if_neg version, if_neg vid, if_pos rfl]

theorem writeByte_search : writeByte s.cfg.idxSearch v mode s = writeSearch v s := by
  obtain ⟨-, -, version, vid, restart⟩ := legal.specialIndices_ne
  rw [writeByte, if_neg version, if_neg vid, if_neg restart, if_pos rfl]

end Special

section SpecialCommand
variable {s : State} {n : BitVec 16} (hb : booted s = true) (legal : s.cfg.Legal) (mode : CvMode)
  (v : Byte)
include hb legal

/-- A write to a named index passes the range check in either mode (R114, R117, R118). -/
theorem exec_cvWr_named (named : n.toNat ∈ s.cfg.namedIndices) :
    exec (cvWr mode n v) s = .next (writeByte n.toNat v mode (opStart s)) :=
  exec_cvWr hb (legal.named_inRange named) mode v

theorem exec_cvWr_version (hn : n.toNat = s.cfg.idxVersion) :
    exec (cvWr mode n v) s = .next (opStart s) := by
  rw [exec_cvWr_named hb legal mode v (by simp [hn, Params.namedIndices]), hn]
  exact congrArg _ (writeByte_version (s := opStart s) v mode)

theorem exec_cvWr_vid (hn : n.toNat = s.cfg.idxVid) :
    exec (cvWr mode n v) s = .next (if v = s.cfg.resetSentinel
      then reboot (ackIn mode (setDefaults (opStart s))) else opStart s) := by
  rw [exec_cvWr_named hb legal mode v (by simp [hn, Params.namedIndices]), hn]
  exact congrArg _ (writeByte_vid (s := opStart s) legal v mode)

theorem exec_cvWr_restart (hn : n.toNat = s.cfg.idxRestart) :
    exec (cvWr mode n v) s = .next (if v ≠ 0 then reboot (opStart s) else opStart s) := by
  rw [exec_cvWr_named hb legal mode v (by simp [hn, Params.namedIndices]), hn]
  exact congrArg _ (writeByte_restart (s := opStart s) legal v mode)

theorem exec_cvWr_search (hn : n.toNat = s.cfg.idxSearch) :
    exec (cvWr mode n v) s = .next (writeSearch v (opStart s)) := by
  rw [exec_cvWr_named hb legal mode v (by simp [hn, Params.namedIndices]), hn]
  exact congrArg _ (writeByte_search (s := opStart s) legal v mode)

end SpecialCommand

/-- Settles O56, in the mode of the command, by its equation at each special index. -/
theorem specialWritesFollowTheirOwnRules : Obligations.SpecialWritesFollowTheirOwnRules := by
  intro n v i s hb legal hi
  obtain ⟨mode, rfl⟩ : ∃ mode, i = cvWr mode n v :=
    hi.elim (fun h => ⟨.serviceMode, h⟩) (fun h => ⟨.programmingOnMain, h⟩)
  refine ⟨exec_cvWr_version hb legal mode v, fun hn hv => ?_, fun hn hv => ?_, fun hn hv => ?_,
    fun hn hv => ?_, fun hn hv => ?_⟩
  · rw [exec_cvWr_vid hb legal mode v hn, if_neg hv]; rfl
  · rw [exec_cvWr_restart hb legal mode v hn, if_neg (not_not.2 hv)]; rfl
  · rw [exec_cvWr_restart hb legal mode v hn, if_pos hv]; rfl
  · rw [exec_cvWr_search hb legal mode v hn, writeSearch, if_pos hv]; rfl
  · rw [exec_cvWr_search hb legal mode v hn, writeSearch, if_neg (not_not.2 hv)]; rfl

/-- The factory reset of a `CV` write ends in the reset state over the table it wrote (R125). -/
theorem reboot_ackIn_setDefaults (mode : CvMode) (s : State) :
    reboot (ackIn mode (setDefaults s)) =
      { State.resetWith s.cfg (setDefaults s).table with
          now := s.now, raw := s.raw, rsp := s.rsp, port := s.port
          events := s.events ++ ackEvents mode ++ [.reboot] } := by
  rw [ackIn_eq, setDefaults_frame]; rfl

/-- Settles O57: in either mode the write is the factory reset, then the mode's acknowledge, then the
reboot. -/
theorem factoryResetByVendorId : Obligations.FactoryResetByVendorId := by
  intro n v s hb legal hwf hn hv
  have resets (mode : CvMode) : exec (cvWr mode n v) s = .next
      { State.resetWith s.cfg (setDefaults (opStart s)).table with
          now := s.now, raw := s.raw, port := s.port
          events := ackEvents mode ++ [.reboot] } := by
    rw [exec_cvWr_vid hb legal mode v hn, if_pos hv, reboot_ackIn_setDefaults]; rfl
  exact ⟨_, _, resets .serviceMode, resets .programmingOnMain,
    fun k => setDefaults_read (opStart s) k hwf, rfl, rfl⟩

/-! ### Writing a bit -/

/-- The new byte has the bit's value at its place and the old byte's bits elsewhere (R121). -/
theorem getLsbD_withBit (b : Byte) (i : Nat) (v : Bool) {j : Nat} (hj : j < 8) :
    (withBit b i v).getLsbD j = if j = i then v else b.getLsbD j := by
  have mask : (1#8 <<< i).getLsbD j = decide (j = i) := by
    by_cases h : j = i
    · simp [h ▸ hj, h]
    · by_cases hlt : j < i
      · simp [h, hlt]
      · simp [h, hj, show j - i ≠ 0 by omega]
  cases v with
  | true =>
    rw [withBit, if_pos rfl, BitVec.getLsbD_or, mask]
    by_cases h : j = i <;> simp [h]
  | false =>
    rw [withBit, if_neg Bool.false_ne_true, BitVec.getLsbD_and, BitVec.getLsbD_not, mask]
    by_cases h : j = i <;> simp [h, hj]

theorem exec_cvBitwSm {s : State} {n : BitVec 16} (hb : booted s = true)
    (inRange : s.cfg.cvMin ≤ n.toNat ∧ n.toNat ≤ s.cfg.n) (q : BitVec 3) (d : Bool) :
    exec (.cvBitwSm n q d) s = .next
      { s with
          table := Memory.write s.table n.toNat (withBit (memRead s n.toNat) q.toNat d)
          rsp := 0
          events := [.ack] } := by
  calc exec (.cvBitwSm n q d) s
      = whenBooted s (whenIndexOk n s (emit (memWrite (opStart s) n.toNat
          (withBit (memRead s n.toNat) q.toNat d)) .ack)) := rfl
    _ = _ := by rw [whenIndexOk_of_inRange inRange, whenBooted_of_booted hb]; rfl

/-- Settles O58: the command is one `Memory.write` of `withBit` of the stored byte. -/
theorem bitWriteChangesOneBit : Obligations.BitWriteChangesOneBit := by
  refine ⟨fun w h => decode_of_opcode h, fun n q d s hb hwf hmin hmax => ?_⟩
  refine ⟨_, exec_cvBitwSm hb ⟨hmin, hmax⟩ q d, fun k hk => Memory.read_write_other _ _ _ _ hk,
    fun j hj => ?_, rfl⟩
  calc (Memory.read (Memory.write s.table n.toNat _) n.toNat).getLsbD j
      = (withBit (memRead s n.toNat) q.toNat d).getLsbD j := by
        rw [Memory.read_write_same _ _ _ hwf]
    _ = _ := getLsbD_withBit _ _ _ hj

/-! ### The events of an operation -/

/-- The event lists each operation can end with (R124, R126). -/
def eventLists : Instr → List (List Event)
  | .sysTick => [[], [.reboot]]
  | .cvVfySm _ _ => [[], [.ack]]
  | .cvBitvSm _ _ _ => [[], [.ack]]
  | .cvBitwSm _ _ _ => [[], [.ack]]
  | .cvWrSm _ _ => [[], [.ack], [.reboot], [.ack, .reboot]]
  | .cvWrPom _ _ => [[], [.reboot]]
  | _ => [[]]

/-- A session's part of a tick adds a `Reboot` or nothing (R130 to R134). -/
theorem sessionTick_events (s : State) :
    (sessionTick s).events = s.events ∨ (sessionTick s).events = s.events ++ [.reboot] := by
  rcases sessionTick_cases s with ⟨-, -, e⟩ | ⟨-, -, e⟩ | ⟨-, -, e⟩ | ⟨-, -, e⟩ | ⟨-, -, e⟩ |
    ⟨-, -, -, -, e⟩ <;> rw [e]
  case inr.inl | inr.inr.inr.inr.inl => exact .inr (by simp)
  all_goals exact .inl rfl

theorem tick_events (s : State) : (tick s).events ∈ eventLists .sysTick := by
  have session := sessionTick_events (buttonRead (opStart s))
  rcases tick_cases s with ⟨-, e⟩ | ⟨-, e⟩ <;> rw [e] <;> simpa [eventLists] using session

/-- A write adds the mode's acknowledge, a `Reboot`, both or nothing (R119). -/
theorem writeByte_events (idx : Nat) (v : Byte) (mode : CvMode) (s : State) :
    (writeByte idx v mode s).events ∈ [s.events, s.events ++ ackEvents mode,
      s.events ++ [.reboot], s.events ++ ackEvents mode ++ [.reboot]] := by
  rcases writeByte_cases idx v mode s with ⟨-, e⟩ | ⟨-, -, e⟩ | ⟨-, -, e⟩ | ⟨-, -, e⟩ |
    ⟨-, -, e⟩ | ⟨-, -, e⟩ | ⟨-, -, e⟩ | ⟨-, -, -, -, e⟩ <;> rw [e]
  case inr.inl => simp [ackIn_eq]
  case inr.inr.inr.inl => simp
  case inr.inr.inr.inr.inr.inr.inr => simp [ackIn_eq]
  all_goals exact List.mem_cons_self

/-- The range check of a command adds the empty list to those of its effect (R114). -/
theorem whenIndexOk_events {n : BitVec 16} {s t : State} {lists : List (List Event)}
    (h : t.events ∈ lists) (hnil : [] ∈ lists) : (whenIndexOk n s t).events ∈ lists := by
  rcases whenIndexOk_cases n s t with ⟨-, e⟩ | ⟨-, e⟩ <;> rw [e]
  · exact h
  · exact hnil

theorem verify_events (s : State) (P : Prop) [Decidable P] :
    (if P then emit (opStart s) .ack else opStart s).events ∈ [[], [Event.ack]] := by
  split <;> simp

/-- Every operation ends with one of its event lists. -/
theorem exec_events_mem {i : Instr} {s t : State} (h : exec i s = .next t) :
    t.events ∈ eventLists i := by
  have nil_mem {lists : List (List Event)} : [] ∈ [] :: lists := List.mem_cons_self
  cases i with
  | sysTick => obtain ⟨-, rfl⟩ := whenBooted_next.1 h; exact tick_events s
  | cvVfySm | cvBitvSm =>
    obtain ⟨-, rfl⟩ := whenBooted_next.1 h
    exact whenIndexOk_events (verify_events s _) nil_mem
  | cvBitwSm n q d =>
    obtain ⟨-, rfl⟩ := whenBooted_next.1 h
    exact whenIndexOk_events (by simp [eventLists]) nil_mem
  | cvWrSm n v =>
    obtain ⟨-, rfl⟩ := whenBooted_next.1 h
    exact whenIndexOk_events (writeByte_events _ v .serviceMode (opStart s)) nil_mem
  | cvWrPom n v =>
    obtain ⟨-, rfl⟩ := whenBooted_next.1 h
    have pom := writeByte_events (cvIndex n) v .programmingOnMain (opStart s)
    exact whenIndexOk_events (by simpa [ackEvents, eventLists] using pom) nil_mem
  | cvVfyPom n v =>
    obtain ⟨-, rfl⟩ := whenBooted_next.1 h
    exact whenIndexOk_events nil_mem nil_mem
  | cvBitPom => obtain ⟨-, rfl⟩ := whenBooted_next.1 h; exact nil_mem
  | acc => obtain ⟨-, ⟨-, rfl⟩ | ⟨-, rfl⟩⟩ := execAcc_next.1 h <;> exact nil_mem
  | btnRead | btnTglread | btnIspressed | btnIsreleased | btnWaspressed | btnWasreleased
  | btnPressedfor | btnReleasedfor => obtain ⟨-, rfl⟩ := whenAttached_next.1 h; exact nil_mem
  | flSingle | flCont => obtain ⟨-, rfl⟩ := hostConfigure_next.1 h; exact nil_mem
  | cvsRead | cvsWrite => obtain ⟨-, rfl⟩ := indexRefusal_next.1 h; exact nil_mem
  | cvsSetdef =>
    have inited : s.inited = true := by
      by_contra uninit
      cases h.symm.trans (if_neg uninit)
    cases h.symm.trans (exec_cvsSetdef inited)
    simp [eventLists]
  | _ => cases h; exact nil_mem

/-- Settles O59: each event list of an operation is one of the four, and the operation is its witness
for the events in it. -/
theorem eventsAreAckThenReboot : Obligations.EventsAreAckThenReboot := by
  intro i s t h
  have listed := exec_events_mem h
  cases i with
  | sysTick | cvWrPom _ _ | cvVfySm _ _ | cvBitvSm _ _ _ | cvBitwSm _ _ _ =>
    simp only [eventLists, List.mem_cons, List.not_mem_nil, or_false] at listed
    rcases listed with e | e <;> simp [e]
  | cvWrSm n v =>
    simp only [eventLists, List.mem_cons, List.not_mem_nil, or_false] at listed
    rcases listed with e | e | e | e <;> simp [e]
  | _ => simp [List.mem_singleton.1 listed]

end Sys2Proof.Machine
end

section
/-! PROOFS of the family `45_addr_session.md`: the tick in each state of the session (R131 to R134) in
R143's order, the ways out of `WAITING` (R138), and the capture (R135, R136). -/

namespace Sys2Proof.Machine

/-! ### The order inside a tick -/

theorem exec_sysTick_of_booted {s : State} (hi : s.inited = true) (ha : s.btn.attached = true) :
    exec .sysTick s = .next (tick s) :=
  whenBooted_of_booted ((booted_iff s).2 ⟨hi, ha⟩) _

/-- A session that reboots is the end of the tick (R143, R153). -/
theorem tick_of_reboot {s u : State} (h : sessionTick (buttonRead (opStart s)) = reboot u) :
    tick s = reboot u := by
  rcases tick_cases s with ⟨-, e⟩ | ⟨silent, -⟩
  · rw [e, h]
  · exact absurd (by simp [h]) silent

/-- After a session that emits nothing the tick advances the indicator (R143). -/
theorem tick_of_silent {s u : State} (h : sessionTick (buttonRead (opStart s)) = u)
    (silent : u.events = []) : tick s = flashUpdate u := by
  rcases tick_cases s with ⟨rebooted, -⟩ | ⟨-, e⟩
  · rw [h, silent] at rebooted; nomatch rebooted
  · rw [e, h]

/-- Where the session leaves the indicator with nothing to advance, the tick ends with it (R143). -/
theorem tick_of_still {s u : State} (h : sessionTick (buttonRead (opStart s)) = u)
    (silent : u.events = []) (still : updateFlash u.cfg u.now u.fl = u.fl) : tick s = u := by
  rw [tick_of_silent h silent, flashUpdate, still]

/-- The tick of a session that does nothing: the button is read and the pattern advances (R143). -/
theorem tick_of_unchanged {s : State}
    (h : sessionTick (buttonRead (opStart s)) = buttonRead (opStart s)) :
    tick s =
      { s with
          btn := readButton s.cfg s.now s.raw s.btn, fl := updateFlash s.cfg s.now s.fl
          rsp := 0, events := [] } :=
  tick_of_silent h rfl

/-! ### The session's part, by its state -/

section BySession
variable {s : State}

theorem sessionTick_of_idle (hs : s.sess = .idle) : sessionTick s = sessionIdle s := by
  simp only [sessionTick, hs]

theorem sessionTick_of_armed (hs : s.sess = .armed) : sessionTick s = sessionArmed s := by
  simp only [sessionTick, hs]

theorem sessionTick_of_waiting (hs : s.sess = .waiting) : sessionTick s = sessionWaiting s := by
  simp only [sessionTick, hs]

theorem sessionTick_of_captured (hs : s.sess = .captured) : sessionTick s = sessionCaptured s := by
  simp only [sessionTick, hs]

end BySession

/-! ### IDLE and WAITING: the press edge -/

/-- R131 in R143's order: the steady light of an arming is not advanced by its tick. -/
theorem tick_of_idle {s : State} (hs : s.sess = .idle) :
    tick s =
      if wasPressed (readButton s.cfg s.now s.raw s.btn) = true then
        { s with
            btn := readButton s.cfg s.now s.raw s.btn, fl := lightOn s.fl, sess := .armed
            rsp := 0, events := [] }
      else
        { s with
            btn := readButton s.cfg s.now s.raw s.btn, fl := updateFlash s.cfg s.now s.fl
            rsp := 0, events := [] } := by
  have session := sessionTick_of_idle (s := buttonRead (opStart s)) hs
  split
  · next pressed =>
    exact tick_of_still (session.trans (if_pos pressed)) rfl (updateFlash_of_steady rfl ..)
  · next quiet => exact tick_of_unchanged (session.trans (if_neg quiet))

/-- R133 in R143's order: the darkness of a cancellation is not advanced by its tick. -/
theorem tick_of_waiting {s : State} (hs : s.sess = .waiting) :
    tick s =
      if wasPressed (readButton s.cfg s.now s.raw s.btn) = true then
        { s with
            btn := readButton s.cfg s.now s.raw s.btn, fl := lightOff s.fl, sess := .idle
            rsp := 0, events := [] }
      else
        { s with
            btn := readButton s.cfg s.now s.raw s.btn, fl := updateFlash s.cfg s.now s.fl
            rsp := 0, events := [] } := by
  have session := sessionTick_of_waiting (s := buttonRead (opStart s)) hs
  split
  · next pressed =>
    exact tick_of_still (session.trans (if_pos pressed)) rfl (updateFlash_of_steady rfl ..)
  · next quiet => exact tick_of_unchanged (session.trans (if_neg quiet))

/-- Settles O16: the tick in `IDLE` asks whether the read accepted a press. -/
theorem tickIdleArmsOnAPressEdge : Obligations.TickIdleArmsOnAPressEdge := by
  intro s hi ha hs b
  rw [exec_sysTick_of_booted hi ha, tick_of_idle hs]
  simp only [wasPressed_iff]
  rfl

/-- Settles O19: the tick in `WAITING` asks whether the read accepted a press, and nothing else. -/
theorem tickWaitingCancelsOnAPressEdge : Obligations.TickWaitingCancelsOnAPressEdge := by
  intro s hi ha hs b
  rw [exec_sysTick_of_booted hi ha, tick_of_waiting hs]
  simp only [wasPressed_iff]
  rfl

/-! ### ARMED: the long hold and the release -/

/-- No time has passed at the clock value itself (R11). -/
theorem clkSub_self (p : Params) (now : Nat) : clkSub p now now = 0 := by
  have := Nat.mod_lt now (Nat.two_pow_pos p.clkBits)
  rw [clkSub, ← Nat.mod_add_mod, Nat.add_sub_cancel' this.le, Nat.mod_self]

/-- A pattern configured now waits for its first time step (R88, R90). -/
theorem updateFlash_configured {p : Params} (htick : 0 < p.tickMs) (m : FlashMode) (q : Pattern)
    (now : Nat) : updateFlash p now (configured m q now) = configured m q now := by
  refine updateFlash_of_early ?_
  rwa [configured_lastTick, clkSub_self]

/-- A factory reset and a reboot end in the reset state over the table written (R101, R153). -/
theorem reboot_setDefaults (s : State) :
    reboot (setDefaults s) =
      { State.resetWith s.cfg (setDefaults s).table with
          now := s.now, raw := s.raw, rsp := s.rsp, port := s.port
          events := s.events ++ [.reboot] } := by
  rw [setDefaults_frame]; rfl

section Armed
variable {s : State} (hs : s.sess = .armed)
include hs

/-- R132, long hold. -/
theorem tick_of_longHold
    (held : pressedFor s.cfg s.now (readButton s.cfg s.now s.raw s.btn) s.cfg.longHoldMs = true) :
    tick s = reboot (setDefaults (turnOff (buttonRead (opStart s)))) := by
  have session := sessionTick_of_armed (s := buttonRead (opStart s)) hs
  exact tick_of_reboot (session.trans (if_pos held))

/-- R132, the release: by D26 the level of the accepted state. -/
theorem tick_of_release (htick : 0 < s.cfg.tickMs)
    (released : (readButton s.cfg s.now s.raw s.btn).currentState = false) :
    tick s =
      { s with
          btn := readButton s.cfg s.now s.raw s.btn, sess := .waiting, rsp := 0, events := []
          fl := configured .continuousBursts s.cfg.patFast s.now } := by
  have session := sessionTick_of_armed (s := buttonRead (opStart s)) hs
  have notHeld : ¬ pressedFor s.cfg s.now (readButton s.cfg s.now s.raw s.btn)
      s.cfg.longHoldMs = true := fun held =>
    Bool.false_ne_true (released.symm.trans ((pressedFor_iff ..).1 held).1)
  exact tick_of_still (session.trans ((if_neg notHeld).trans (if_pos (by simp [released])))) rfl
    (updateFlash_configured htick ..)

/-- R132, neither: the hold goes on. -/
theorem tick_of_shortHold (pressed : (readButton s.cfg s.now s.raw s.btn).currentState = true)
    (short : ¬ pressedFor s.cfg s.now (readButton s.cfg s.now s.raw s.btn)
      s.cfg.longHoldMs = true) :
    tick s =
      { s with
          btn := readButton s.cfg s.now s.raw s.btn, fl := updateFlash s.cfg s.now s.fl
          rsp := 0, events := [] } := by
  have session := sessionTick_of_armed (s := buttonRead (opStart s)) hs
  exact tick_of_unchanged
    (session.trans ((if_neg short).trans (if_neg (by simp [pressed]))))

end Armed

/-- Settles O17: the tick is the factory reset of `setDefaults_read`, and the reboot over what it
wrote. -/
theorem tickArmedLongHoldResetsToFactory : Obligations.TickArmedLongHoldResetsToFactory := by
  intro s hi ha hs hwf pressed long
  have resets := (exec_sysTick_of_booted hi ha).trans
    (congrArg _ (tick_of_longHold hs ((pressedFor_iff ..).2 ⟨pressed, long⟩)))
  exact ⟨_, resets, fun k => setDefaults_read (turnOff (buttonRead (opStart s))) k hwf,
    reboot_setDefaults _⟩

/-- Settles O18, by the two branches of the tick in `ARMED` that do not reboot. -/
theorem tickArmedReleaseStartsTheCaptureLoop :
    Obligations.TickArmedReleaseStartsTheCaptureLoop := by
  intro s hi ha hs htick b
  rw [exec_sysTick_of_booted hi ha]
  refine ⟨fun released => congrArg _ (tick_of_release hs htick released),
    fun pressed short => congrArg _ (tick_of_shortHold hs pressed fun held => ?_)⟩
  exact short.not_ge ((pressedFor_iff ..).1 held).2

/-! ### CAPTURED: the settle delay -/

/-- R134 in R143's order: the reboot keeps the table, and until the delay is over the settle timer is
kept too. -/
theorem tick_of_captured {s : State} (hs : s.sess = .captured) :
    tick s =
      if firesNow s.cfg s.now s.ts = true then
        { State.resetWith s.cfg s.table with
            now := s.now, raw := s.raw, events := [.reboot], port := s.port }
      else
        { s with
            btn := readButton s.cfg s.now s.raw s.btn, fl := updateFlash s.cfg s.now s.fl
            rsp := 0, events := [] } := by
  have session := sessionTick_of_captured (s := buttonRead (opStart s)) hs
  split
  · next fires => exact tick_of_reboot (session.trans (if_pos fires))
  · next silent =>
    have kept : expire s.cfg s.now s.ts = s.ts := if_neg silent
    have unchanged := congrArg (fun t => { buttonRead (opStart s) with ts := t }) kept
    exact tick_of_unchanged (session.trans ((if_neg silent).trans unchanged))

/-- Settles O20: the tick in `CAPTURED` asks whether the settle timer fires. -/
theorem tickCapturedRebootsAfterTheSettleDelay :
    Obligations.TickCapturedRebootsAfterTheSettleDelay := by
  intro s hi ha hs
  rw [exec_sysTick_of_booted hi ha, tick_of_captured hs]
  simp only [firesNow_iff]

/-! ### The conditions of `ACC` -/

/-- The three conditions of R135, in its order. -/
theorem captures_iff {isMine isBroadcast : Bool} {s : State} :
    captures isMine isBroadcast s = true ↔
      s.sess = .waiting ∧ (isBroadcast = true ∨ isMine = true) ∧
        (memRead s s.cfg.idxConfig).getLsbD s.cfg.bitAcc.val = true := by
  simp only [captures, accQualifies, bitOf, Bool.and_eq_true, Bool.or_eq_true, beq_iff_eq,
    and_assoc]

/-! ### The ways out of WAITING -/

/-- A CV write reaches the session only by a reboot (R119, R153). -/
theorem writeByte_sess (idx : Nat) (v : Byte) (mode : CvMode) (s : State) :
    (writeByte idx v mode s).sess = s.sess ∨
    (Event.reboot ∈ (writeByte idx v mode s).events ∧ (writeByte idx v mode s).sess = .idle) := by
  rcases writeByte_cases idx v mode s with ⟨-, e⟩ | ⟨-, -, e⟩ | ⟨-, -, e⟩ | ⟨-, -, e⟩ |
    ⟨-, -, e⟩ | ⟨-, -, e⟩ | ⟨-, -, e⟩ | ⟨-, -, -, -, e⟩ <;> rw [e]
  case inr.inl | inr.inr.inr.inl => exact .inr (by simp)
  case inr.inr.inr.inr.inr.inr.inr => exact .inl (by simp)
  all_goals exact .inl rfl

/-- Settles O22: among the effects of an operation only three reach the session, each from `WAITING`
in one way. -/
theorem waitingEndsInThreeWays : Obligations.WaitingEndsInThreeWays := by
  intro i s t hs h left
  cases exec_effect h with
  | tick =>
    rw [tick_of_waiting hs] at left ⊢
    split at left
    · next pressed => rw [if_pos pressed]; exact .inl ⟨rfl, pressed, rfl, rfl, rfl⟩
    · exact absurd hs left
  | capture a m b =>
    obtain ⟨-, ⟨captured, -⟩ | ⟨-, unchanged⟩⟩ := execAcc_next.1 h
    · obtain ⟨-, qualifies, -⟩ := captures_iff.1 captured
      exact .inr (.inl ⟨a, m, b, rfl, qualifies.symm, rfl, rfl⟩)
    · rw [← unchanged] at left
      exact absurd hs left
  | cvWrite mode hi =>
    have rebooted := (writeByte_sess _ _ mode (opStart s)).resolve_left fun e => left (e.trans hs)
    exact .inr (.inr ⟨_, _, hi, rebooted⟩)
  | factoryReset => exact absurd ((setDefaults_sess (opStart s)).trans hs) left
  | _ => exact absurd hs left

/-! ### The capture -/

theorem decode_acc {w : OpWord} (h : (opcodeOf w).toNat / 4 = 0b011000) :
    decode w = .instr
      (.acc ((argOf w).setWidth 11) ((opcodeOf w).getLsbD 1) ((opcodeOf w).getLsbD 0)) := by
  rcases opcode_of_upperSix h with e | e | e | e <;> rw [e] <;> exact decode_of_opcode e

/-- The bytes a capture writes, by the addressing mode of the store (R109, R135). -/
def captureBytes (a : BitVec 11) (s : State) : Byte × Byte :=
  encodeAddress a (bitOf (memRead s s.cfg.idxConfig) s.cfg.bitOut.val)

/-- A capture changes the table, the settle timer and the session (R135). -/
theorem capture_eq (a : BitVec 11) (s : State) :
    capture a s =
      { s with
          table := Memory.write (Memory.write s.table s.cfg.idxAddrLow (captureBytes a s).1)
            s.cfg.idxAddrHigh (captureBytes a s).2
          ts := setTime s.cfg s.now s.ts s.cfg.settleMs, sess := .captured } := rfl

section CaptureBytes
variable {s : State} (hwf : Memory.wf s.table = true) (a : BitVec 11)
include hwf

theorem memRead_capture_high :
    memRead (capture a s) s.cfg.idxAddrHigh = (captureBytes a s).2 :=
  Memory.read_write_same _ _ _ (Memory.wf_write _ _ _ hwf)

/-- The high byte is written last, so the low one stays only where the indices differ (R6, R135). -/
theorem memRead_capture_low (hne : s.cfg.idxAddrLow ≠ s.cfg.idxAddrHigh) :
    memRead (capture a s) s.cfg.idxAddrLow = (captureBytes a s).1 :=
  (Memory.read_write_other _ _ _ _ hne).trans (Memory.read_write_same _ _ _ hwf)

end CaptureBytes

/-- The pair of R109 in the arithmetic of numbers. -/
theorem toNat_encodeAddress (a : BitVec 11) (output : Bool) :
    (encodeAddress a output).1.toNat = (if output then a.toNat % 256 else (a.toNat + 1) % 64) ∧
    (encodeAddress a output).2.toNat =
      (if output then a.toNat / 256 else (a.toNat + 1) / 64 % 8) := by
  cases output with
  | true => exact toNat_encodeAddress_output a
  | false => exact toNat_encodeAddress_decoder a

/-- Settles O23: the condition is `captures`; where it holds the operation is `capture`, whose bytes
are those of `encodeAddress`. -/
theorem accCapturesOrIsDropped : Obligations.AccCapturesOrIsDropped := by
  refine ⟨fun w => decode_acc, fun a isMine isBroadcast s hi ha hwf => ?_⟩
  intro cfgByte output d
  have hb : booted s = true := (booted_iff s).2 ⟨hi, ha⟩
  split
  · next qualifies =>
    obtain ⟨low, high⟩ := toNat_encodeAddress a output
    refine ⟨_, exec_acc_of_captures hb (captures_iff.2 qualifies), ?_, fun hne => ?_,
      fun k hlow hhigh => ?_, ?_⟩
    · rw [← high]
      exact congrArg _ (memRead_capture_high (s := opStart s) hwf a)
    · rw [← low]
      exact congrArg _ (memRead_capture_low (s := opStart s) hwf a hne)
    · by_contra changed
      exact (capture_changes (s := opStart s) changed).elim hlow hhigh
    · rw [capture_eq, setTime_eq_ite]; rfl
  · next other =>
    have fails := Bool.eq_false_iff.2 (mt captures_iff.1 other)
    exact execAcc_next.2 ⟨hb, .inr ⟨fails, rfl⟩⟩

end Sys2Proof.Machine
end

section
/-! PROOFS of the family `46_top_level.md`: `SYS.NOP` and what behaves as it (R142), the tick as a
computation that reads no CV (R144), and what a step takes from the environment (R145, R167). -/

namespace Sys2Proof.Machine

/-! ### The poll that finds no command -/

/-- Settles O15: a reserved word and `CV.RSVD` both end in the dropped state, which is that of
`SYS.NOP` at the same samples. -/
theorem nopChangesNothing : Obligations.NopChangesNothing := by
  refine ⟨fun w hop => decode_of_opcode hop, fun s => rfl, fun r s hword => ?_⟩
  change issue r s = .next (dropped (present r s))
  rcases hword with ⟨why, hreserved⟩ | ⟨n, v, hrsvd⟩
  · exact issue_reserved hreserved s
  · exact issue_instr hrsvd s

/-! ### Computations that read no CV -/

/-- Over another table `f` gives the same state but for the table, which it may write. -/
def ReadsNoCv (f : State → State) : Prop :=
  ∀ (s : State) (m : Memory), ∃ m', f { s with table := m } = { f s with table := m' }

theorem ReadsNoCv.of_commutes {f : State → State}
    (h : ∀ (s : State) (m : Memory), f { s with table := m } = { f s with table := m }) :
    ReadsNoCv f :=
  fun s m => ⟨m, h s m⟩

theorem ReadsNoCv.comp {f g : State → State} (hg : ReadsNoCv g) (hf : ReadsNoCv f) :
    ReadsNoCv (g ∘ f) := by
  intro s m
  obtain ⟨m₁, ef⟩ := hf s m
  obtain ⟨m₂, eg⟩ := hg (f s) m₁
  exact ⟨m₂, (congrArg g ef).trans eg⟩

/-- A choice reads no CV where its condition and both its branches read none. -/
theorem ReadsNoCv.ite {c : State → Prop} [DecidablePred c] {f g : State → State}
    (hc : ∀ (s : State) (m : Memory), c { s with table := m } ↔ c s) (hf : ReadsNoCv f)
    (hg : ReadsNoCv g) : ReadsNoCv fun s => if c s then f s else g s := by
  intro s m
  by_cases h : c s
  · simpa only [hc, if_pos h] using hf s m
  · simpa only [hc, if_neg h] using hg s m

/-- The factory reset writes the table from the image (R101). -/
theorem setDefaults_readsNoCv : ReadsNoCv setDefaults := by
  intro s m
  refine ⟨(setDefaults { s with table := m }).table, ?_⟩
  rw [setDefaults_frame s]
  exact setDefaults_frame { s with table := m }

/-! ### The parts of a tick -/

theorem sessionIdle_readsNoCv : ReadsNoCv sessionIdle :=
  .ite (fun _ _ => Iff.rfl) (.of_commutes fun _ _ => rfl) (.of_commutes fun _ _ => rfl)

theorem sessionArmed_readsNoCv : ReadsNoCv sessionArmed := by
  have factoryReset : ReadsNoCv (reboot ∘ setDefaults ∘ turnOff) :=
    .comp (.of_commutes fun _ _ => rfl)
      (setDefaults_readsNoCv.comp (.of_commutes fun _ _ => rfl))
  exact .ite (fun _ _ => Iff.rfl) factoryReset
    (.ite (fun _ _ => Iff.rfl) (.of_commutes fun _ _ => rfl) (.of_commutes fun _ _ => rfl))

theorem sessionWaiting_readsNoCv : ReadsNoCv sessionWaiting :=
  .ite (fun _ _ => Iff.rfl) (.of_commutes fun _ _ => rfl) (.of_commutes fun _ _ => rfl)

theorem sessionCaptured_readsNoCv : ReadsNoCv sessionCaptured :=
  .ite (fun _ _ => Iff.rfl) (.of_commutes fun _ _ => rfl) (.of_commutes fun _ _ => rfl)

/-- The state of the session selects its part of the tick, over every table alike (R130). -/
theorem sessionTick_readsNoCv : ReadsNoCv sessionTick := by
  intro s m
  have part : ∃ f, ReadsNoCv f ∧
      ∀ m, sessionTick { s with table := m } = f { s with table := m } := by
    cases s.sess with
    | idle => exact ⟨_, sessionIdle_readsNoCv, fun _ => sessionTick_of_idle rfl⟩
    | armed => exact ⟨_, sessionArmed_readsNoCv, fun _ => sessionTick_of_armed rfl⟩
    | waiting => exact ⟨_, sessionWaiting_readsNoCv, fun _ => sessionTick_of_waiting rfl⟩
    | captured => exact ⟨_, sessionCaptured_readsNoCv, fun _ => sessionTick_of_captured rfl⟩
  obtain ⟨f, hf, selects⟩ := part
  have here : sessionTick s = f s := selects s.table
  rw [here, selects m]
  exact hf s m

/-- None of the tick's three parts reads a CV, nor does the test for a `Reboot` between them
(R143). -/
theorem tick_readsNoCv : ReadsNoCv tick := by
  have read : ReadsNoCv (buttonRead ∘ opStart) := .of_commutes fun _ _ => rfl
  have finish : ReadsNoCv fun s => if Event.reboot ∈ s.events then s else flashUpdate s :=
    .ite (fun _ _ => Iff.rfl) (.of_commutes fun _ _ => rfl) (.of_commutes fun _ _ => rfl)
  exact finish.comp (sessionTick_readsNoCv.comp read)

/-- Settles O21: the other table leaves the machine booted, and the tick reads no CV. -/
theorem tickDoesNotReadTheTable : Obligations.TickDoesNotReadTheTable := by
  intro s t m h
  obtain ⟨hb, rfl⟩ := whenBooted_next.1 h
  obtain ⟨m', e⟩ := tick_readsNoCv s m
  exact ⟨_, whenBooted_of_booted (s := { s with table := m }) hb _, by rw [e]⟩

/-! ### The port and the parameters -/

/-- What waits at the port and the parameters are the same in both states. -/
structure SameEnvironment (s t : State) : Prop where
  port : t.port = s.port
  cfg : t.cfg = s.cfg

theorem sessionTick_sameEnvironment (s : State) : SameEnvironment s (sessionTick s) := by
  rcases sessionTick_cases s with ⟨-, -, e⟩ | ⟨-, -, e⟩ | ⟨-, -, e⟩ | ⟨-, -, e⟩ | ⟨-, -, e⟩ |
    ⟨-, -, -, -, e⟩ <;> rw [e]
  case inr.inl => exact ⟨setDefaults_port _, setDefaults_cfg _⟩
  all_goals exact ⟨rfl, rfl⟩

theorem tick_sameEnvironment (s : State) : SameEnvironment s (tick s) := by
  obtain ⟨port, cfg⟩ := sessionTick_sameEnvironment (buttonRead (opStart s))
  rcases tick_cases s with ⟨-, e⟩ | ⟨-, e⟩ <;> rw [e] <;> exact ⟨port, cfg⟩

theorem writeByte_sameEnvironment (idx : Nat) (v : Byte) (mode : CvMode) (s : State) :
    SameEnvironment s (writeByte idx v mode s) := by
  rcases writeByte_cases idx v mode s with ⟨-, e⟩ | ⟨-, -, e⟩ | ⟨-, -, e⟩ | ⟨-, -, e⟩ |
    ⟨-, -, e⟩ | ⟨-, -, e⟩ | ⟨-, -, e⟩ | ⟨-, -, -, -, e⟩ <;> rw [e]
  case inr.inl => exact ⟨by simp, by simp⟩
  case inr.inr.inr.inr.inr.inr.inr => exact ⟨ackIn_port mode _, ackIn_cfg mode _⟩
  all_goals exact ⟨rfl, rfl⟩

/-- No operation looks past itself at the port or sets a parameter (R167). -/
theorem OpEffect.sameEnvironment {s t : State} {i : Instr} (he : OpEffect s i t) :
    SameEnvironment s t := by
  cases he with
  | tick => exact tick_sameEnvironment s
  | factoryReset => exact ⟨setDefaults_port _, setDefaults_cfg _⟩
  | cvWrite mode =>
    obtain ⟨port, cfg⟩ := writeByte_sameEnvironment _ _ mode (opStart s)
    exact ⟨port, cfg⟩
  | _ => exact ⟨rfl, rfl⟩

theorem issue_sameEnvironment {r : Request} {s t : State} (h : issue r s = .next t) :
    SameEnvironment s t := by
  cases hd : decode r.word with
  | instr i =>
    rw [issue_instr hd] at h
    obtain ⟨port, cfg⟩ := (exec_effect h).sameEnvironment
    exact ⟨port, cfg⟩
  | reserved why =>
    rw [issue_reserved hd] at h
    cases h
    exact ⟨rfl, rfl⟩

/-- Settles O12, by what stands at the head of the port: the step takes it off, and neither an
operation nor a power cycle changes what is behind it. -/
theorem stepTakesOneStimulusAndKeepsParameters :
    Obligations.StepTakesOneStimulusAndKeepsParameters := by
  intro s t h
  cases hport : s.port with
  | nil =>
    rw [step_idle hport] at h
    cases h
    exact ⟨hport, rfl⟩
  | cons stimulus rest =>
    cases stimulus with
    | operation r =>
      rw [step_operation hport] at h
      obtain ⟨port, cfg⟩ := issue_sameEnvironment h
      exact ⟨port, cfg⟩
    | powerCycle =>
      rw [step_powerCycle hport] at h
      cases h
      exact ⟨rfl, rfl⟩

end Sys2Proof.Machine
end

section
/-! PROOFS of the family `60_exceptions.md`: the reset state behind every `Reboot` (R153, R166). The
two computations that reboot, the session's part of a tick and a CV write, each end in the reset
state or add no `Reboot`. -/

namespace Sys2Proof.Machine

/-- `t` is the reset state over its own table, with the samples, the answer and the port of `s`
(R26, D30). -/
def IsResetOf (s t : State) : Prop :=
  t = { State.resetWith s.cfg t.table with
          now := s.now, raw := s.raw, rsp := s.rsp, events := t.events, port := s.port }

theorem reboot_isResetOf (s : State) : IsResetOf s (reboot s) := rfl

/-- The factory reset before a reboot leaves nothing but the table (R101). -/
theorem reboot_setDefaults_isResetOf (s : State) : IsResetOf s (reboot (setDefaults s)) := by
  rw [IsResetOf, reboot_setDefaults]; rfl

theorem reboot_ackIn_setDefaults_isResetOf (mode : CvMode) (s : State) :
    IsResetOf s (reboot (ackIn mode (setDefaults s))) := by
  rw [IsResetOf, reboot_ackIn_setDefaults]; rfl

/-- The session's part reboots on the long hold and after the settle delay (R132, R134). -/
theorem sessionTick_events_eq_or_isResetOf (s : State) :
    (sessionTick s).events = s.events ∨ IsResetOf s (sessionTick s) := by
  rcases sessionTick_cases s with ⟨-, -, e⟩ | ⟨-, -, e⟩ | ⟨-, -, e⟩ | ⟨-, -, e⟩ | ⟨-, -, e⟩ |
    ⟨-, -, -, -, e⟩ <;> rw [e]
  case inr.inl => exact .inr (reboot_setDefaults_isResetOf (turnOff s))
  case inr.inr.inr.inr.inl => exact .inr (reboot_isResetOf { s with ts := expire s.cfg s.now s.ts })
  all_goals exact .inl rfl

/-- A tick that reboots ends with its session's part (R143). -/
theorem tick_isResetOf {s : State} (rebooted : Event.reboot ∈ (tick s).events) :
    IsResetOf (opStart s) (tick s) := by
  rcases tick_cases s with ⟨session, e⟩ | ⟨silent, e⟩ <;> rw [e] at rebooted ⊢
  · refine (sessionTick_events_eq_or_isResetOf (buttonRead (opStart s))).resolve_left fun kept => ?_
    rw [kept] at session
    nomatch session
  · exact absurd rebooted silent

/-- A CV write reboots on the sentinel at the vendor-ID CV and on a restart request (R119). -/
theorem writeByte_events_eq_or_isResetOf (idx : Nat) (v : Byte) (mode : CvMode) (s : State) :
    (writeByte idx v mode s).events ∈ [s.events, s.events ++ ackEvents mode] ∨
    IsResetOf s (writeByte idx v mode s) := by
  rcases writeByte_cases idx v mode s with ⟨-, e⟩ | ⟨-, -, e⟩ | ⟨-, -, e⟩ | ⟨-, -, e⟩ |
    ⟨-, -, e⟩ | ⟨-, -, e⟩ | ⟨-, -, e⟩ | ⟨-, -, -, -, e⟩ <;> rw [e]
  case inr.inl => exact .inr (reboot_ackIn_setDefaults_isResetOf mode s)
  case inr.inr.inr.inl => exact .inr (reboot_isResetOf s)
  case inr.inr.inr.inr.inr.inr.inr => exact .inl (by simp [ackIn_eq])
  all_goals exact .inl List.mem_cons_self

/-- A mode's acknowledge is no `Reboot` (R126). -/
theorem reboot_notMem_ackEvents (mode : CvMode) : Event.reboot ∉ ackEvents mode := by
  cases mode <;> decide

/-- A CV write that reboots ends in the reset state (R119, R125). -/
theorem writeByte_isResetOf {idx : Nat} {v : Byte} {mode : CvMode} {s : State}
    (silent : s.events = []) (rebooted : Event.reboot ∈ (writeByte idx v mode s).events) :
    IsResetOf s (writeByte idx v mode s) := by
  refine (writeByte_events_eq_or_isResetOf idx v mode s).resolve_left fun kept => ?_
  rw [silent, List.nil_append, List.mem_pair] at kept
  rcases kept with e | e <;> rw [e] at rebooted
  · nomatch rebooted
  · exact reboot_notMem_ackEvents mode rebooted

/-- Settles O60: among the effects of an operation only a tick and a CV write can emit `Reboot`, and
each of them then ends in the reset state. -/
theorem rebootLeavesTheResetState : Obligations.RebootLeavesTheResetState := by
  intro i s t h rebooted
  cases exec_effect h with
  | tick => exact tick_isResetOf rebooted
  | cvWrite mode => exact writeByte_isResetOf (opStart_events s) rebooted
  | factoryReset => rw [setDefaults_events] at rebooted; nomatch rebooted
  | acknowledge | bitWrite => simp at rebooted
  | _ => nomatch rebooted

end Sys2Proof.Machine
end

section
/-! PROOFS of the family `70_reset_and_hazards.md` and of the statements beside the families: the
step without an operation (R145, R164), what an operation requires (R169, R180), and the boot
sequence the host owes after every reset (R168). -/

namespace Sys2Proof.Machine

/-! ### Steps without an operation -/

/-- Settles O7: the volatile elements take their reset values, and the answer, cleared first, is
that of the reset state. -/
theorem powerCycleGivesTheResetState : Obligations.PowerCycleGivesTheResetState :=
  fun _ _ h => step_powerCycle h

/-- Settles O8: the poll at an empty port and `SYS.NOP` both drop. -/
theorem emptyPortStepsAsNop : Obligations.EmptyPortStepsAsNop :=
  fun _ h => step_idle h

/-! ### What stops an operation -/

/-- The operation has a next state (R180). -/
def Completes (r : Result) : Prop := ∃ t, r = .next t

theorem completes_next (t : State) : Completes (.next t) := ⟨t, rfl⟩

theorem completes_whenBooted_iff (s t : State) :
    Completes (whenBooted s t) ↔ booted s = true := by
  simp [Completes, whenBooted_next]

theorem completes_whenAttached_iff (s t : State) :
    Completes (whenAttached s t) ↔ s.btn.attached = true := by
  simp [Completes, whenAttached_next]

theorem completes_hostConfigure_iff (m : FlashMode) (q : Pattern) (s : State) :
    Completes (hostConfigure m q s) ↔ patternUsable m q = true := by
  simp [Completes, hostConfigure_next]

theorem completes_indexRefusal_iff (r : Refusal) (n k : Nat) (t : State) :
    Completes (if n < k then .refused r else .next t) ↔ k ≤ n := by
  simp [Completes, indexRefusal_next]

/-- The factory reset needs an image (R101). -/
theorem completes_cvsSetdef_iff (s : State) :
    Completes (exec .cvsSetdef s) ↔ s.inited = true := by
  refine ⟨fun ⟨t, h⟩ => ?_, fun inited => ⟨_, exec_cvsSetdef inited⟩⟩
  by_contra uninit
  cases h.symm.trans (if_neg uninit)

/-- Where nothing is required the operands alone decide (R169). -/
theorem properUse_of_requirementMet {i : Instr} {s : State} (met : requirementMet i s = true) :
    properUse i s = i.wellFormed s.cfg := by
  rw [properUse, met, Bool.and_true]

/-- Settles O13, by the one check an operation goes through: the boot sequence, the button, the
image, the index, the pattern, or none. -/
theorem operationsCompleteExactlyOnProperUse :
    Obligations.OperationsCompleteExactlyOnProperUse := by
  intro i s
  change Completes (exec i s) ↔ properUse i s = true
  cases i with
  | sysTick | cvVfySm | cvVfyPom | cvWrSm | cvWrPom | cvBitvSm | cvBitwSm | cvBitPom | acc =>
    exact completes_whenBooted_iff s _
  | btnRead | btnIspressed | btnIsreleased | btnWaspressed | btnWasreleased | btnPressedfor
  | btnReleasedfor | btnTglread => exact completes_whenAttached_iff s _
  | cvsSetdef => exact completes_cvsSetdef_iff s
  | cvsRead | cvsWrite =>
    rw [properUse_of_requirementMet rfl, Instr.wellFormed, decide_eq_true_iff]
    exact completes_indexRefusal_iff _ _ _ _
  | flSingle on off count pause =>
    rw [properUse_of_requirementMet rfl, Instr.wellFormed,
      ← patternUsable_single on off count pause]
    exact completes_hostConfigure_iff _ _ s
  | flCont on off count pause =>
    rw [properUse_of_requirementMet rfl, Instr.wellFormed, ← patternUsable_cont]
    exact completes_hostConfigure_iff _ _ s
  | _ => exact iff_of_true (completes_next _) rfl

/-! ### The boot sequence -/

/-- The state after step 1 of the boot sequence: the image of the tags is built (R97). -/
def imageBuilt (decoderType version : Byte) (s : State) : State :=
  { opStart s with defaults := defaultImage s.cfg decoderType version, inited := true }

theorem exec_cvsInit (decoderType version : Byte) (s : State) :
    exec (.cvsInit decoderType version) s = .next (imageBuilt decoderType version s) :=
  rfl

/-- The table after step 3: kept where the marker stood, else the factory image (R111, R168). -/
def bootTable (decoderType version : Byte) (s : State) : Memory :=
  if memRead s 0 = s.cfg.magic then s.table
  else (setDefaults (imageBuilt decoderType version s)).table

/-- Steps 2 and 3: the response of `CVS.NOTINIT` decides on the factory reset, and neither leaves
anything but the table (R168). -/
theorem bootRepair_imageBuilt (decoderType version : Byte) (s : State) :
    bootRepair (respondBool (imageBuilt decoderType version s)
      (markerDiffers s.cfg (memRead s 0))) =
    .next { imageBuilt decoderType version s with table := bootTable decoderType version s } := by
  by_cases marked : memRead s 0 = s.cfg.magic
  · have answer : markerDiffers s.cfg (memRead s 0) = false := by simp [markerDiffers, marked]
    rw [answer, bootTable, if_pos marked]
    rfl
  · have answer : markerDiffers s.cfg (memRead s 0) = true := by simp [markerDiffers, marked]
    rw [answer, bootTable, if_neg marked]
    calc bootRepair (respondBool (imageBuilt decoderType version s) true)
        = exec .cvsSetdef (respondBool (imageBuilt decoderType version s) true) := if_pos rfl
      _ = .next (setDefaults (imageBuilt decoderType version s)) := exec_cvsSetdef rfl
      _ = _ := by rw [← setDefaults_frame]

/-- The boot sequence completes in every state; it leaves the image, the repaired table and a
freshly attached button (R168). -/
theorem bootWith_eq (decoderType version : Byte) (s : State) :
    bootWith decoderType version s = .next
      { imageBuilt decoderType version s with
          table := bootTable decoderType version s
          btn := attachButton s.cfg.btnPin s.cfg.debounceMs s.cfg.btnPullup s.cfg.btnInvert
            s.now s.raw } :=
  bootFrom_next.2 ⟨_, _, _, exec_cvsInit decoderType version s, rfl,
    bootRepair_imageBuilt decoderType version s, rfl⟩

/-- A store without the marker becomes the factory image (R98, R111). -/
theorem read_bootTable_of_unmarked {s : State} (unmarked : memRead s 0 ≠ s.cfg.magic)
    (hwf : Memory.wf s.table = true) (decoderType version : Byte) {k : Nat} (hk : k ≤ s.cfg.n) :
    Memory.read (bootTable decoderType version s) k = imageByte s.cfg decoderType version k := by
  rw [bootTable, if_neg unmarked]
  calc memRead (setDefaults (imageBuilt decoderType version s)) k
      = defaultAt (imageBuilt decoderType version s) k :=
        (setDefaults_read (imageBuilt decoderType version s) k hwf).trans (if_pos hk)
    _ = imageByte s.cfg decoderType version k := defaultImage_at _ _ _ hk

/-- Either way the marker stands after the boot sequence (R111). -/
theorem read_bootTable_marker {s : State} (hwf : Memory.wf s.table = true)
    (decoderType version : Byte) :
    Memory.read (bootTable decoderType version s) 0 = s.cfg.magic := by
  by_cases marked : memRead s 0 = s.cfg.magic
  · rw [bootTable, if_pos marked]
    exact marked
  · exact read_bootTable_of_unmarked marked hwf decoderType version (Nat.zero_le _)

/-- Under a set sentinel the address is reported as not set and as unassigned (R104, R105). -/
theorem address_unassigned_of_sentinel {t : State}
    (sentinel : sentinelSet (memRead t t.cfg.idxAddrHigh) = true) :
    ∃ u v, exec .cvsAddrnotset t = .next u ∧ u.rsp = 1 ∧
      exec .cvsStoredaddr t = .next v ∧ v.rsp = t.cfg.unassigned :=
  ⟨_, _, rfl, congrArg Bool.toNat sentinel, rfl, if_pos sentinel⟩

/-- Settles O50: the state that `bootWith_eq` names, whose table is kept or is the factory image;
the normative address-high byte of the image has its sentinel bit set. -/
theorem bootInitialisesAnyStore : Obligations.BootInitialisesAnyStore := by
  intro p m decoderType version now raw port legal hwf s
  refine ⟨rfl, _, bootWith_eq decoderType version s, rfl, rfl, rfl, rfl, rfl,
    read_bootTable_marker hwf decoderType version, fun marked => if_pos marked, fun unmarked => ?_⟩
  obtain ⟨-, low, high, -⟩ := imageByte_given legal decoderType version
  have named {k : Nat} (hk : k ∈ p.namedIndices) :
      Memory.read (bootTable decoderType version s) k = imageByte p decoderType version k :=
    read_bootTable_of_unmarked (s := s) unmarked hwf decoderType version (legal.named_le hk)
  have addrLow := (named (by simp [Params.namedIndices])).trans low
  have addrHigh := (named (by simp [Params.namedIndices])).trans high
  refine ⟨addrLow, addrHigh, fun ⟨_, _, _, _, defHigh, _⟩ => address_unassigned_of_sentinel ?_⟩
  calc sentinelSet (Memory.read (bootTable decoderType version s) p.idxAddrHigh)
      = sentinelSet 0x80 := by rw [addrHigh, defHigh]
    _ = true := by decide

end Sys2Proof.Machine
end
